-- ==== Sys2Proof/Word.lean ====
section
/-! DEFINITION. The word types of the core (R6): every quantity the spec treats as bits, at its fixed width. -/
namespace Sys2Proof

/-- A memory cell, a general register, a timer or the stack pointer: 8 bits (R6). -/
abbrev Byte := BitVec 8

/-- PC, I, a stack entry or an instruction: 16 bits (R6). -/
abbrev Word := BitVec 16

/-- A four-bit field of an instruction: a register index `x` or `y`, a row count `n`, a key number (R92). -/
abbrev Nibble := BitVec 4

/-- The twelve-bit immediate `nnn` (R92). -/
abbrev Imm12 := BitVec 12

end Sys2Proof
end

