-- ==== Sys2Proof/Syntax.lean ====
section
/-! DEFINITION. The instruction set: the 35 rows of the opcode map (R2, R95), one constructor per row. -/
namespace Sys2Proof

/-- One constructor per row of R95, in the table's order. A field keeps the name R92 gives it. The
fields that a rule says are not used (`kk` of HALT, `y` of the two shifts) are kept, so that an
instruction stands for exactly one word (DESIGN CHOICE, safe: notes/assumptions/14.md). -/
inductive Instr where
  /-- 00E0, CLS (R200). -/
  | cls
  /-- 00EE, RET (R141). -/
  | ret
  /-- 00kk with kk neither E0 nor EE, HALT (R142, R98). -/
  | halt (kk : Byte)
  /-- 1nnn, JP nnn (R143). -/
  | jp (nnn : Imm12)
  /-- 2nnn, CALL nnn (R144). -/
  | call (nnn : Imm12)
  /-- 3xnn, SE Vx, nn (R146). -/
  | seImm (x : Nibble) (nn : Byte)
  /-- 4xnn, SNE Vx, nn (R147). -/
  | sneImm (x : Nibble) (nn : Byte)
  /-- 5xy0, SE Vx, Vy (R148). -/
  | seReg (x y : Nibble)
  /-- 6xnn, LD Vx, nn (R160). -/
  | ldImm (x : Nibble) (nn : Byte)
  /-- 7xnn, ADD Vx, nn (R161). -/
  | addImm (x : Nibble) (nn : Byte)
  /-- 8xy0, LD Vx, Vy (R162). -/
  | ldReg (x y : Nibble)
  /-- 8xy1, OR Vx, Vy (R163). -/
  | orReg (x y : Nibble)
  /-- 8xy2, AND Vx, Vy (R164). -/
  | andReg (x y : Nibble)
  /-- 8xy3, XOR Vx, Vy (R165). -/
  | xorReg (x y : Nibble)
  /-- 8xy4, ADD Vx, Vy (R166). -/
  | addReg (x y : Nibble)
  /-- 8xy5, SUB Vx, Vy (R167). -/
  | subReg (x y : Nibble)
  /-- 8xy6, SHR Vx (R168). -/
  | shr (x y : Nibble)
  /-- 8xy7, SUBN Vx, Vy (R169). -/
  | subnReg (x y : Nibble)
  /-- 8xyE, SHL Vx (R170). -/
  | shl (x y : Nibble)
  /-- 9xy0, SNE Vx, Vy (R149). -/
  | sneReg (x y : Nibble)
  /-- Annn, LD I, nnn (R180). -/
  | ldI (nnn : Imm12)
  /-- Bnnn, JP V0, nnn (R145). -/
  | jpV0 (nnn : Imm12)
  /-- Cxnn, RND Vx, nn (R217). -/
  | rnd (x : Nibble) (nn : Byte)
  /-- Dxyn, DRW Vx, Vy, n (R202). -/
  | drw (x y n : Nibble)
  /-- Ex9E, SKP Vx (R211). -/
  | skp (x : Nibble)
  /-- ExA1, SKNP Vx (R212). -/
  | sknp (x : Nibble)
  /-- Fx07, LD Vx, DT (R214). -/
  | ldVxDt (x : Nibble)
  /-- Fx0A, LD Vx, K (R213). -/
  | ldVxK (x : Nibble)
  /-- Fx15, LD DT, Vx (R215). -/
  | ldDtVx (x : Nibble)
  /-- Fx18, LD ST, Vx (R216). -/
  | ldStVx (x : Nibble)
  /-- Fx1E, ADD I, Vx (R181). -/
  | addI (x : Nibble)
  /-- Fx29, LD F, Vx (R182). -/
  | ldF (x : Nibble)
  /-- Fx33, LD B, Vx (R183). -/
  | ldB (x : Nibble)
  /-- Fx55, LD [I], Vx (R184). -/
  | storeRegs (x : Nibble)
  /-- Fx65, LD Vx, [I] (R185). -/
  | loadRegs (x : Nibble)
  deriving DecidableEq, Repr

end Sys2Proof
end

