-- ==== Sys2Proof/WellFormed.lean ====
section
/-! DEFINITION. Which instructions a word can stand for. The only check of the opcode map beyond the
field widths is the exclusion on the halt row (R95, R98). -/
namespace Sys2Proof

/-- The low byte of a halt entry is neither E0 nor EE: those two words are CLS and RET (R95, R98).
Every other instruction is well formed at every value of its fields (R93). -/
def Instr.wellFormed : Instr → Bool
  | .halt kk => kk ≠ 0xE0#8 && kk ≠ 0xEE#8
  | .cls | .ret | .jp _ | .call _ | .seImm _ _ | .sneImm _ _ | .seReg _ _ | .ldImm _ _ | .addImm _ _ => true
  | .ldReg _ _ | .orReg _ _ | .andReg _ _ | .xorReg _ _ | .addReg _ _ | .subReg _ _ | .shr _ _ => true
  | .subnReg _ _ | .shl _ _ | .sneReg _ _ | .ldI _ | .jpV0 _ | .rnd _ _ | .drw _ _ _ | .skp _ => true
  | .sknp _ | .ldVxDt _ | .ldVxK _ | .ldDtVx _ | .ldStVx _ | .addI _ | .ldF _ | .ldB _ => true
  | .storeRegs _ | .loadRegs _ => true

end Sys2Proof
end

