-- ==== Sys2Proof/Decode.lean ====
section
/-! DEFINITION. The encodings (R90 to R105): the formats and fields of a word, the two-level decoder,
the decoder over bytes, and the encoder. -/
namespace Sys2Proof

/-! ### The formats of R91, as concatenations -/

/-- Format NNN (R91): the primary opcode, then the twelve-bit immediate. -/
def wordNnn (op : Nibble) (nnn : Imm12) : Word := op ++ nnn

/-- Formats XNN and XKK, and FIXED and SYS with a zero second nibble (R91): the primary opcode, a
nibble, then a byte. -/
def wordXnn (op x : Nibble) (nn : Byte) : Word := (op ++ x) ++ nn

/-- Formats XYN and XY (R91): four nibbles. -/
def wordXyn (op x y n : Nibble) : Word := ((op ++ x) ++ y) ++ n

/-! ### The fields of R92 -/

/-- `op`, bits 15:12. -/
def fieldOp (w : Word) : Nibble := w.extractLsb' 12 4

/-- `x`, bits 11:8. -/
def fieldX (w : Word) : Nibble := w.extractLsb' 8 4

/-- `y`, bits 7:4. -/
def fieldY (w : Word) : Nibble := w.extractLsb' 4 4

/-- `n`, bits 3:0. -/
def fieldN (w : Word) : Nibble := w.extractLsb' 0 4

/-- `nn`, also named `kk`, bits 7:0. -/
def fieldNn (w : Word) : Byte := w.extractLsb' 0 8

/-- `nnn`, bits 11:0. -/
def fieldNnn (w : Word) : Imm12 := w.extractLsb' 0 12

/-! ### Decoding -/

/-- Why bytes stand for no instruction: the group of R100 the word lies in, or too few bytes. -/
inductive Unrecognized where
  /-- 0x0100 to 0x0FFF: bits 11:8 of a group 0 word are not 0 (R97). -/
  | group0HighByte
  /-- 5xyn with n not 0 (R105). -/
  | group5LowNibble
  /-- 8xyn with n in 8, 9, A, B, C, D, F (R96). -/
  | group8SubOpcode
  /-- 9xyn with n not 0 (R105). -/
  | group9LowNibble
  /-- Exkk with kk neither 9E nor A1 (R99). -/
  | groupELowByte
  /-- Fxkk with kk none of the nine low bytes (R99). -/
  | groupFLowByte
  /-- Fewer than the two bytes of an instruction (R90); no fetch produces this. -/
  | truncated
  deriving DecidableEq, Repr

/-- Group 0, decoded on the whole word (R97, R98). -/
def decodeGroup0 (w : Word) : Except Unrecognized Instr :=
  if fieldX w ≠ 0x0#4 then .error .group0HighByte
  else if fieldNn w = 0xE0#8 then .ok .cls
  else if fieldNn w = 0xEE#8 then .ok .ret
  else .ok (.halt (fieldNn w))

/-- Group 5, decoded on the low nibble (R105). -/
def decodeGroup5 (w : Word) : Except Unrecognized Instr :=
  if fieldN w = 0x0#4 then .ok (.seReg (fieldX w) (fieldY w)) else .error .group5LowNibble

/-- Group 8, decoded on the low nibble (R96). -/
def decodeGroup8 (w : Word) : Except Unrecognized Instr :=
  match fieldN w with
  | 0x0#4 => .ok (.ldReg (fieldX w) (fieldY w))
  | 0x1#4 => .ok (.orReg (fieldX w) (fieldY w))
  | 0x2#4 => .ok (.andReg (fieldX w) (fieldY w))
  | 0x3#4 => .ok (.xorReg (fieldX w) (fieldY w))
  | 0x4#4 => .ok (.addReg (fieldX w) (fieldY w))
  | 0x5#4 => .ok (.subReg (fieldX w) (fieldY w))
  | 0x6#4 => .ok (.shr (fieldX w) (fieldY w))
  | 0x7#4 => .ok (.subnReg (fieldX w) (fieldY w))
  | 0xE#4 => .ok (.shl (fieldX w) (fieldY w))
  | _ => .error .group8SubOpcode

/-- Group 9, decoded on the low nibble (R105). -/
def decodeGroup9 (w : Word) : Except Unrecognized Instr :=
  if fieldN w = 0x0#4 then .ok (.sneReg (fieldX w) (fieldY w)) else .error .group9LowNibble

/-- Group E, decoded on the low byte (R99). -/
def decodeGroupE (w : Word) : Except Unrecognized Instr :=
  match fieldNn w with
  | 0x9E#8 => .ok (.skp (fieldX w))
  | 0xA1#8 => .ok (.sknp (fieldX w))
  | _ => .error .groupELowByte

/-- Group F, decoded on the low byte (R99). -/
def decodeGroupF (w : Word) : Except Unrecognized Instr :=
  match fieldNn w with
  | 0x07#8 => .ok (.ldVxDt (fieldX w))
  | 0x0A#8 => .ok (.ldVxK (fieldX w))
  | 0x15#8 => .ok (.ldDtVx (fieldX w))
  | 0x18#8 => .ok (.ldStVx (fieldX w))
  | 0x1E#8 => .ok (.addI (fieldX w))
  | 0x29#8 => .ok (.ldF (fieldX w))
  | 0x33#8 => .ok (.ldB (fieldX w))
  | 0x55#8 => .ok (.storeRegs (fieldX w))
  | 0x65#8 => .ok (.loadRegs (fieldX w))
  | _ => .error .groupFLowByte

/-- The two-level decoder of R94 over the opcode map of R95: total, and rejecting by name. The last
arm is primary opcode F, the only value the arms before it leave. -/
def decode (w : Word) : Except Unrecognized Instr :=
  match fieldOp w with
  | 0x0#4 => decodeGroup0 w
  | 0x1#4 => .ok (.jp (fieldNnn w))
  | 0x2#4 => .ok (.call (fieldNnn w))
  | 0x3#4 => .ok (.seImm (fieldX w) (fieldNn w))
  | 0x4#4 => .ok (.sneImm (fieldX w) (fieldNn w))
  | 0x5#4 => decodeGroup5 w
  | 0x6#4 => .ok (.ldImm (fieldX w) (fieldNn w))
  | 0x7#4 => .ok (.addImm (fieldX w) (fieldNn w))
  | 0x8#4 => decodeGroup8 w
  | 0x9#4 => decodeGroup9 w
  | 0xA#4 => .ok (.ldI (fieldNnn w))
  | 0xB#4 => .ok (.jpV0 (fieldNnn w))
  | 0xC#4 => .ok (.rnd (fieldX w) (fieldNn w))
  | 0xD#4 => .ok (.drw (fieldX w) (fieldY w) (fieldN w))
  | 0xE#4 => decodeGroupE w
  | _ => decodeGroupF w

/-- Two bytes as one word, "high byte first" (R67). -/
def wordOfBytes (hi lo : Byte) : Word := hi ++ lo

/-- The more significant byte of a word, which lies at the lower address (R67). -/
def highByte (w : Word) : Byte := w.extractLsb' 8 8

/-- The less significant byte of a word, which lies at the higher address (R67). -/
def lowByte (w : Word) : Byte := w.extractLsb' 0 8

/-- The decoder over bytes: the instruction the first two bytes hold, and the bytes after it (R90). -/
def decodeBytes : List Byte → Except Unrecognized (Instr × List Byte)
  | hi :: lo :: rest =>
    match decode (wordOfBytes hi lo) with
    | .ok i => .ok (i, rest)
    | .error r => .error r
  | _ => .error .truncated

/-! ### Encoding -/

/-- The word of an instruction, row by row of R95. -/
def encode : Instr → Word
  | .cls => wordXnn 0x0#4 0x0#4 0xE0#8
  | .ret => wordXnn 0x0#4 0x0#4 0xEE#8
  | .halt kk => wordXnn 0x0#4 0x0#4 kk
  | .jp nnn => wordNnn 0x1#4 nnn
  | .call nnn => wordNnn 0x2#4 nnn
  | .seImm x nn => wordXnn 0x3#4 x nn
  | .sneImm x nn => wordXnn 0x4#4 x nn
  | .seReg x y => wordXyn 0x5#4 x y 0x0#4
  | .ldImm x nn => wordXnn 0x6#4 x nn
  | .addImm x nn => wordXnn 0x7#4 x nn
  | .ldReg x y => wordXyn 0x8#4 x y 0x0#4
  | .orReg x y => wordXyn 0x8#4 x y 0x1#4
  | .andReg x y => wordXyn 0x8#4 x y 0x2#4
  | .xorReg x y => wordXyn 0x8#4 x y 0x3#4
  | .addReg x y => wordXyn 0x8#4 x y 0x4#4
  | .subReg x y => wordXyn 0x8#4 x y 0x5#4
  | .shr x y => wordXyn 0x8#4 x y 0x6#4
  | .subnReg x y => wordXyn 0x8#4 x y 0x7#4
  | .shl x y => wordXyn 0x8#4 x y 0xE#4
  | .sneReg x y => wordXyn 0x9#4 x y 0x0#4
  | .ldI nnn => wordNnn 0xA#4 nnn
  | .jpV0 nnn => wordNnn 0xB#4 nnn
  | .rnd x nn => wordXnn 0xC#4 x nn
  | .drw x y n => wordXyn 0xD#4 x y n
  | .skp x => wordXnn 0xE#4 x 0x9E#8
  | .sknp x => wordXnn 0xE#4 x 0xA1#8
  | .ldVxDt x => wordXnn 0xF#4 x 0x07#8
  | .ldVxK x => wordXnn 0xF#4 x 0x0A#8
  | .ldDtVx x => wordXnn 0xF#4 x 0x15#8
  | .ldStVx x => wordXnn 0xF#4 x 0x18#8
  | .addI x => wordXnn 0xF#4 x 0x1E#8
  | .ldF x => wordXnn 0xF#4 x 0x29#8
  | .ldB x => wordXnn 0xF#4 x 0x33#8
  | .storeRegs x => wordXnn 0xF#4 x 0x55#8
  | .loadRegs x => wordXnn 0xF#4 x 0x65#8

/-! ### The columns of the opcode map R95 -/

/-- The column "mask" of R95. -/
def rowMask : Instr → Word
  | .cls | .ret => 0xFFFF
  | .halt _ => 0xFF00
  | .jp _ | .call _ | .seImm _ _ | .sneImm _ _ | .ldImm _ _ | .addImm _ _ => 0xF000
  | .ldI _ | .jpV0 _ | .rnd _ _ | .drw _ _ _ => 0xF000
  | .seReg _ _ | .sneReg _ _ | .ldReg _ _ | .orReg _ _ | .andReg _ _ | .xorReg _ _ => 0xF00F
  | .addReg _ _ | .subReg _ _ | .shr _ _ | .subnReg _ _ | .shl _ _ => 0xF00F
  | .skp _ | .sknp _ | .ldVxDt _ | .ldVxK _ | .ldDtVx _ | .ldStVx _ | .addI _ | .ldF _ | .ldB _ => 0xF0FF
  | .storeRegs _ | .loadRegs _ => 0xF0FF

/-- The column "match" of R95. -/
def rowMatch : Instr → Word
  | .cls => 0x00E0 | .ret => 0x00EE | .halt _ => 0x0000
  | .jp _ => 0x1000 | .call _ => 0x2000 | .seImm _ _ => 0x3000 | .sneImm _ _ => 0x4000
  | .seReg _ _ => 0x5000 | .ldImm _ _ => 0x6000 | .addImm _ _ => 0x7000
  | .ldReg _ _ => 0x8000 | .orReg _ _ => 0x8001 | .andReg _ _ => 0x8002 | .xorReg _ _ => 0x8003
  | .addReg _ _ => 0x8004 | .subReg _ _ => 0x8005 | .shr _ _ => 0x8006 | .subnReg _ _ => 0x8007
  | .shl _ _ => 0x800E | .sneReg _ _ => 0x9000 | .ldI _ => 0xA000 | .jpV0 _ => 0xB000
  | .rnd _ _ => 0xC000 | .drw _ _ _ => 0xD000 | .skp _ => 0xE09E | .sknp _ => 0xE0A1
  | .ldVxDt _ => 0xF007 | .ldVxK _ => 0xF00A | .ldDtVx _ => 0xF015 | .ldStVx _ => 0xF018
  | .addI _ => 0xF01E | .ldF _ => 0xF029 | .ldB _ => 0xF033 | .storeRegs _ => 0xF055 | .loadRegs _ => 0xF065

/-- The instruction the decoder reads from the bits `w` of a table row of `nbits` bits: one 16-bit
word, so bit 15 is the most significant bit of the instruction (R7); bits from `nbits` up are 0. The
word is laid out high byte first (R67) and given to the decoder over bytes. -/
def decodeTableWord (nbits w : Nat) : Option Instr :=
  let word : Word := BitVec.ofNat 16 (w % 2 ^ nbits)
  match decodeBytes [highByte word, lowByte word] with
  | .ok (i, _) => some i
  | .error _ => none

end Sys2Proof
end

