-- ==== Sys2Proof/Config.lean ====
section
/-! DEFINITION. What an implementation fixes (R5, R271) and the one free value of the machine (R222). -/
namespace Sys2Proof

/-- The four parameters that PowerOn fixes (R5, R270). They never change afterwards. -/
structure Params where
  /-- MEM_SIZE: the number of bytes of Memory. -/
  memSize : Nat
  /-- DISP_W: the framebuffer's width in pixels. -/
  dispW : Nat
  /-- DISP_H: the framebuffer's height in pixels. -/
  dispH : Nat
  /-- STACK_DEPTH: the number of return addresses the Stack holds. -/
  stackDepth : Nat
  deriving DecidableEq, Repr

/-- The legal ranges of R5 and R271. A machine outside them "is not described by this spec". -/
abbrev Params.legal (p : Params) : Prop :=
  (0x202 ≤ p.memSize ∧ p.memSize ≤ 0x10000) ∧ (1 ≤ p.dispW ∧ p.dispW ≤ 65536) ∧
    (1 ≤ p.dispH ∧ p.dispH ≤ 65536) ∧ (1 ≤ p.stackDepth ∧ p.stackDepth ≤ 255)

/-- The random byte `rnd` that the environment supplies to the cycle that makes the `k`-th draw
(R222, R133): "chosen by the environment afresh for every cycle and subject to no law". It has no
body, so every statement holds for every sequence of bytes. DESIGN CHOICE, safe: notes/assumptions/2.md. -/
opaque Config.rndInput : Nat → Byte

end Sys2Proof
end

