-- ==== Sys2Proof/Machine/Defaults.lean ====
section
/-! DEFINITION. The default parameter values and the fixed addresses of R5, and the font table of R68. -/
namespace Sys2Proof.Machine

/-- The values of R5's column "default": 4096 bytes of Memory, a 64 by 32 display, 16 stack entries. -/
def defaultParams : Params := ⟨4096, 64, 32, 16⟩

/-- PROG_BASE: the load address and the reset value of PC (R5, R40). -/
def progBase : Nat := 0x200

/-- FONT_BASE: the first address of the font table (R5, R61). -/
def fontBase : Nat := 0x050

/-- The 80 bytes of the font table, glyph 0 first, the top row of each glyph first (R68). UNVERIFIED,
unsafe for the glyphs' pictures: notes/assumptions/13.md. -/
def font : List Byte :=
  [0xF0, 0x90, 0x90, 0x90, 0xF0] ++ -- 0
  [0x20, 0x60, 0x20, 0x20, 0x70] ++ -- 1
  [0xF0, 0x10, 0xF0, 0x80, 0xF0] ++ -- 2
  [0xF0, 0x10, 0xF0, 0x10, 0xF0] ++ -- 3
  [0x90, 0x90, 0xF0, 0x10, 0x10] ++ -- 4
  [0xF0, 0x80, 0xF0, 0x10, 0xF0] ++ -- 5
  [0xF0, 0x80, 0xF0, 0x90, 0xF0] ++ -- 6
  [0xF0, 0x10, 0x20, 0x40, 0x40] ++ -- 7
  [0xF0, 0x90, 0xF0, 0x90, 0xF0] ++ -- 8
  [0xF0, 0x90, 0xF0, 0x10, 0xF0] ++ -- 9
  [0xF0, 0x90, 0xF0, 0x90, 0x90] ++ -- A
  [0xE0, 0x90, 0xE0, 0x90, 0xE0] ++ -- B
  [0xF0, 0x80, 0x80, 0x80, 0xF0] ++ -- C
  [0xE0, 0x90, 0x90, 0x90, 0xE0] ++ -- D
  [0xF0, 0x80, 0xF0, 0x80, 0xF0] ++ -- E
  [0xF0, 0x80, 0xF0, 0x80, 0x80] -- F

/-- What a byte of Memory that nothing has written reads as: the PowerOn contents of R40, the font
table at 0x050 to 0x09F and 0x00 everywhere else. DESIGN CHOICE, slightly unsafe:
notes/assumptions/3.md. -/
def unlistedByte (a : Nat) : Byte := if a < fontBase then 0 else font.getD (a - fontBase) 0

end Sys2Proof.Machine
end

