-- ==== Sys2Proof/Machine/State.lean ====
section
/-! DEFINITION. The whole architectural state (R43) as plain data, the causes a cycle can fault with,
and the machine right after PowerOn and reset (R40). -/
namespace Sys2Proof.Machine

/-- Main memory (R35, R60): the bytes that differ from what an unlisted address reads as
(`unlistedByte`), by address, strictly rising. The number of bytes is `Params.memSize`. -/
abbrev Memory := List Host.Cell

/-- The framebuffer (R34): row `y` of the outer list, pixel `x` of the row, `true` a lit pixel. -/
abbrev Framebuffer := List (List Bool)

/-- The interpreter mode (R28). All four values of the 2-bit register are modes (DESIGN CHOICE, safe:
notes/assumptions/16.md). -/
inductive Mode where
  | running
  | waitingForKey
  | halted
  | faulted
  deriving DecidableEq, Repr

/-- The five fatal causes of R231. The shared check that finds the cause raises it and `takeFault`
enters it, in the state R236 describes: MODE Faulted with the fault registers written. So a step that
faults in the spec's sense ends in a NEXT state here, and no step of this model ends in the host's
`fault` outcome. DESIGN CHOICE, safe, since it is the spec's own effect: notes/assumptions/7.md. -/
inductive Fault where
  /-- PC or PC + 1 is outside Memory. Raised by the fetch of every executing cycle (R66, R123). -/
  | oobFetch
  /-- A data read outside Memory. Raised by DRW and LD Vx, [I] (R202, R185). -/
  | oobDataRead
  /-- A data write outside Memory. Raised by LD B, Vx and LD [I], Vx (R183, R184). -/
  | oobDataWrite
  /-- A call with a full stack. Raised by CALL (R144). -/
  | stackOverflow
  /-- A return with an empty stack. Raised by RET (R141). -/
  | stackUnderflow
  deriving DecidableEq, Repr

/-- What the model gives no run to. -/
inductive Refusal where
  /-- An instruction without a meaning. Raised by no arm of `exec`: every row has its meaning. Safe. -/
  | notModelled (mnemonic : String)
  /-- PowerOn with parameters outside the ranges of R271: "not described by this spec". Raised by
  `powerOn` alone, by no step. Safe: notes/assumptions/8.md. -/
  | illegalParameters
  deriving DecidableEq, Repr

/-- How an instruction that raises no fault ends its cycle (R124): the kinds `Next`, `Goto(t)`, `Wait`
and `Halt`. -/
inductive OutcomeKind where
  | next
  | goto (t : Word)
  | wait
  | halt
  deriving DecidableEq, Repr

/-- The architectural state of R43, with the parameters that PowerOn fixed (R270) and the model's own
count of random draws (notes/assumptions/2.md). States of other sizes than the parameters say, and an
SP above STACK_DEPTH, are ruled out by `State.inv` (notes/assumptions/9.md). -/
structure State where
  /-- MEM_SIZE, DISP_W, DISP_H and STACK_DEPTH (R5): fixed at PowerOn, never written afterwards.
  DESIGN CHOICE, safe: notes/assumptions/1.md. -/
  params : Params
  /-- V0 to VF (R20); VF is also the flag (R21). -/
  v : Vector Byte 16
  /-- I, the index register (R24). -/
  i : Word
  /-- PC (R22). -/
  pc : Word
  /-- SP, the number of return addresses on the Stack (R25). -/
  sp : Byte
  /-- DT, the delay timer (R26). -/
  dt : Byte
  /-- ST, the sound timer (R27). -/
  st : Byte
  /-- Stack[0] to Stack[STACK_DEPTH-1] (R30). -/
  stack : List Word
  /-- K[0] to K[15], the key flags (R33). -/
  keys : Vector Bool 16
  /-- FB (R34). -/
  fb : Framebuffer
  /-- Mem (R35). -/
  mem : Memory
  /-- MODE (R28). -/
  mode : Mode
  /-- FAULT_CAUSE, 3 bits (R29). -/
  faultCause : BitVec 3
  /-- FAULT_ADDR, 17 bits (R29). -/
  faultAddr : BitVec 17
  /-- FAULT_INSTR (R29). -/
  faultInstr : Word
  /-- CYCLES, CTR_W = 64 bits (R36). -/
  cycles : BitVec 64
  /-- DECODE_FAILS, CTR_W = 64 bits (R37). -/
  decodeFails : BitVec 64
  /-- The model's own field: how many random bytes have been drawn (R222). -/
  rndDraws : Nat
  deriving DecidableEq, Repr

/-- The column "after PowerOn" of R40, for any parameters. -/
def State.afterPowerOn (p : Params) : State where
  params := p
  v := Vector.replicate 16 0
  i := 0
  pc := 0x0200
  sp := 0
  dt := 0
  st := 0
  stack := List.replicate p.stackDepth 0
  keys := Vector.replicate 16 false
  fb := List.replicate p.dispH (List.replicate p.dispW false)
  mem := []
  mode := .running
  faultCause := 0
  faultAddr := 0
  faultInstr := 0
  cycles := 0
  decodeFails := 0
  rndDraws := 0

/-- The machine right after PowerOn with the default parameters of R5 (R40, R270). How a program comes
to run from it: notes/assumptions/4.md (DESIGN CHOICE, safe). -/
def State.reset : State := State.afterPowerOn defaultParams

end Sys2Proof.Machine
end

