-- ==== Sys2Proof/Machine/Ops.lean ====
section
/-! DEFINITION. The named operations over memory, registers, stack, keyboard and framebuffer, the end
of a completing cycle (R125 to R128), and fault entry (R236). -/
namespace Sys2Proof.Machine

/-! ### Memory (R60 to R65) -/

/-- `Mem[a]`: the last byte written at `a`, or what the address reads as before any write. -/
def Memory.read : Memory → Nat → Byte
  | [], a => unlistedByte a
  | (b, w) :: m, a => if a = b then w else Memory.read m a

/-- The list with the cell `(a, v)` at its place in the rising order. -/
def Memory.insert (a : Nat) (v : Byte) : Memory → Memory
  | [] => [(a, v)]
  | (b, w) :: m =>
    if a < b then (a, v) :: (b, w) :: m
    else if a = b then (a, v) :: m
    else (b, w) :: Memory.insert a v m

/-- `Mem[a] <- v` (R64), in canonical form: a byte equal to what the address reads as unlisted leaves
no cell. -/
def Memory.write (m : Memory) (a : Nat) (v : Byte) : Memory :=
  if v = unlistedByte a then m.filter (fun c => c.1 ≠ a) else Memory.insert a v m

/-- Consecutive byte writes from `a` upward, in ascending order. -/
def Memory.writeBytes (m : Memory) (a : Nat) : List Byte → Memory
  | [] => m
  | v :: vs => Memory.writeBytes (m.write a v) (a + 1) vs

/-- The canonical form: addresses strictly rising, and no cell equal to what an unlisted address
reads as. -/
abbrev Memory.wf (m : Memory) : Prop :=
  m.Pairwise (fun c d => c.1 < d.1) ∧ ∀ c ∈ m, c.2 ≠ unlistedByte c.1

/-- The bounds check of R63 and R65 on the `n` addresses from `a` upward: the smallest of them at or
above MEM_SIZE, if there is one. -/
def State.outOfBounds (s : State) (a n : Nat) : Option Nat :=
  if n = 0 ∨ a + n ≤ s.params.memSize then none else some (max a s.params.memSize)

/-! ### Registers -/

/-- `V[x]` (R20). -/
def State.reg (s : State) (x : Nibble) : Byte := s.v[x.toNat]'x.isLt

/-- `V[x] <- b` (R20). -/
def State.setReg (s : State) (x : Nibble) (b : Byte) : State :=
  { s with v := s.v.set x.toNat b x.isLt }

/-- `V[x] <- b`, then `V[15] <- flag`: the write order of R171. -/
def State.setRegFlag (s : State) (x : Nibble) (b flag : Byte) : State :=
  (s.setReg x b).setReg 0xF#4 flag

/-- `I <- w` (R24). -/
def State.setI (s : State) (w : Word) : State := { s with i := w }

/-- `DT <- b` (R26). -/
def State.setDt (s : State) (b : Byte) : State := { s with dt := b }

/-- `ST <- b` (R27). -/
def State.setSt (s : State) (b : Byte) : State := { s with st := b }

/-- The registers `V0` to `V[x]` in order, as the bytes LD [I], Vx stores (R184). -/
def State.regsUpTo (s : State) (x : Nibble) : List Byte :=
  (List.range (x.toNat + 1)).map fun k => s.reg (BitVec.ofNat 4 k)

/-- `V[k] <- Mem[a + k]` for the `n` registers from V0 upward (R185). -/
def State.loadFrom (s : State) (a : Nat) : Nat → State
  | 0 => s
  | k + 1 => (s.loadFrom a k).setReg (BitVec.ofNat 4 k) (s.mem.read (a + k))

/-- Consecutive byte stores from `a` upward (R64). The caller has checked the bounds (R65). -/
def State.store (s : State) (a : Nat) (bytes : List Byte) : State :=
  { s with mem := s.mem.writeBytes a bytes }

/-! ### Stack (R30 to R32) -/

/-- The state after a `Push(w)` that does not fault (R31). -/
def State.push (s : State) (w : Word) : State :=
  { s with stack := s.stack.set s.sp.toNat w, sp := s.sp + 1 }

/-- `Stack[SP - 1]`, the result of a `Pop()` that does not fault (R32). -/
def State.top (s : State) : Word := s.stack.getD (s.sp.toNat - 1) 0

/-- The state after a `Pop()` that does not fault: the slot keeps its value (R32, R30). -/
def State.pop (s : State) : State := { s with sp := s.sp - 1 }

/-! ### Keyboard (R33) -/

/-- `K[k]` (R33). -/
def State.key (s : State) (k : Nibble) : Bool := s.keys[k.toNat]'k.isLt

/-- Sixteen clear key flags. -/
def noKeys : Vector Bool 16 := Vector.replicate 16 false

/-- The smallest `k` with `K[k] = 1`, if any flag is set (R213). -/
def State.lowestKey (s : State) : Option Nibble :=
  ((List.range 16).map (BitVec.ofNat 4)).find? s.key

/-! ### Framebuffer (R34, R202) -/

/-- `FB[y][x]`. -/
def Framebuffer.pixel (fb : Framebuffer) (y x : Nat) : Bool := (fb.getD y []).getD x false

/-- `FB[y][x] <- FB[y][x] ^ 1`. -/
def Framebuffer.flip (fb : Framebuffer) (y x : Nat) : Framebuffer :=
  fb.modify y fun row => row.modify x fun p => !p

/-- A framebuffer of the parameters' size with every pixel 0 (R200). -/
def clearFb (p : Params) : Framebuffer := List.replicate p.dispH (List.replicate p.dispW false)

/-- The places `(py, px)` of the 1 bits of a sprite row byte `b` drawn at row `r` from `(x0, y0)`,
columns left to right, bit 7 leftmost (R201, R202), each axis wrapped on its own. -/
def rowPlaces (p : Params) (x0 y0 r : Nat) (b : Byte) : List (Nat × Nat) :=
  ((List.range 8).filter fun c => b.getLsbD (7 - c)).map fun c =>
    ((y0 + r) % p.dispH, (x0 + c) % p.dispW)

/-- The places a sprite of `n` rows from address `a` plots, rows in ascending order (R202). -/
def spritePlaces (p : Params) (m : Memory) (a x0 y0 n : Nat) : List (Nat × Nat) :=
  (List.range n).flatMap fun r => rowPlaces p x0 y0 r (m.read (a + r))

/-- XOR-plot the places one after another; the Bool is the collision so far: some pixel went from 1
to 0 (R202). -/
def plot : List (Nat × Nat) → Framebuffer × Bool → Framebuffer × Bool
  | [], acc => acc
  | (y, x) :: rest, (fb, coll) => plot rest (fb.flip y x, coll || fb.pixel y x)

/-- `FB <- fb`. -/
def State.setFb (s : State) (fb : Framebuffer) : State := { s with fb := fb }

/-! ### The random input (R222) -/

/-- The state after the random byte of this cycle has been consumed: the next draw is a fresh one. -/
def State.drawn (s : State) : State := { s with rndDraws := s.rndDraws + 1 }

/-! ### The end of a cycle that does not fault (R125 to R128) -/

/-- K after the cycle (R125): preserved by `Wait`, cleared by every other outcome. -/
def keysAfter (k : OutcomeKind) (keys : Vector Bool 16) : Vector Bool 16 :=
  match k with
  | .wait => keys
  | .next | .goto _ | .halt => noKeys

/-- PC after the cycle (R126). -/
def pcAfter (k : OutcomeKind) (pc : Word) : Word :=
  match k with
  | .next => pc + 2
  | .goto t => t
  | .wait | .halt => pc

/-- MODE after the cycle (R127). -/
def modeAfter (k : OutcomeKind) : Mode :=
  match k with
  | .next | .goto _ => .running
  | .wait => .waitingForKey
  | .halt => .halted

/-- Steps 4 and 5 of a cycle whose instruction did not fault (R125 to R128). -/
def State.finish (s : State) (k : OutcomeKind) : State :=
  { s with
    keys := keysAfter k s.keys
    pc := pcAfter k s.pc
    mode := modeAfter k
    cycles := s.cycles + 1 }

/-- The cycle of an unrecognized word: a counted two-byte no-op (R233). -/
def State.decodeFailure (s : State) : State :=
  { s with decodeFails := s.decodeFails + 1 }.finish .next

/-! ### Fault entry (R231, R236) -/

/-- The cause code of R231. -/
def Fault.code : Fault → BitVec 3
  | .oobFetch => 1
  | .oobDataRead => 2
  | .oobDataWrite => 3
  | .stackOverflow => 4
  | .stackUnderflow => 5

/-- Fault entry (R236): the faulting cycle writes MODE and the three fault registers, and nothing
else. There is no handler and no saved-state area; the machine is left by Reset alone (R239).
The meanings give `encode` of the instruction as the word (DEDUCED, safe: notes/assumptions/11.md). -/
def State.takeFault (s : State) (c : Fault) (addr : Nat) (word : Word) : State :=
  { s with
    mode := .faulted
    faultCause := c.code
    faultAddr := BitVec.ofNat 17 addr
    faultInstr := word }

/-- The 2-bit code of MODE (R28). -/
def Mode.code : Mode → BitVec 2
  | .running => 0
  | .waitingForKey => 1
  | .halted => 2
  | .faulted => 3

/-- A cycle begun in this mode fetches nothing (R122). -/
def Mode.stopped : Mode → Bool
  | .running | .waitingForKey => false
  | .halted | .faulted => true

/-- What every outcome of a meaning is: the state at the end of its cycle. -/
abbrev Result := Host.Outcome State Fault Refusal

end Sys2Proof.Machine
end

