-- ==== Sys2Proof/Machine/Flags.lean ====
section
/-! DEFINITION. The unsigned 8-bit arithmetic of R172 and the flag values of R38: each result is
computed exactly on natural numbers and then narrowed. -/
namespace Sys2Proof.Machine

/-- A flag value: exactly 0 or 1 (R172). -/
def flag (b : Bool) : Byte := if b then 1 else 0

/-- `trunc_8(a + b)` (R161, R166). -/
def addByte (a b : Byte) : Byte := BitVec.ofNat 8 (a.toNat + b.toNat)

/-- The carry of an addition: 1 iff the unsigned sum exceeds 255 (R166). -/
def carryFlag (a b : Byte) : Byte := flag (decide (a.toNat + b.toNat > 255))

/-- `trunc_8(256 + a - b)` (R167, R169). -/
def subByte (a b : Byte) : Byte := BitVec.ofNat 8 (256 + a.toNat - b.toNat)

/-- The flag of `a - b`: 0 if the subtrahend exceeds the minuend, else 1 (R167, R169). -/
def noBorrowFlag (a b : Byte) : Byte := flag (!decide (b.toNat > a.toNat))

/-- `a >> 1`, bit 7 of the result 0 (R168). -/
def shrByte (a : Byte) : Byte := BitVec.ofNat 8 (a.toNat / 2)

/-- The bit a right shift moves out: bit 0 (R168). -/
def shrFlag (a : Byte) : Byte := flag (a.getLsbD 0)

/-- `trunc_8(a << 1)`, bit 0 of the result 0 (R170). -/
def shlByte (a : Byte) : Byte := BitVec.ofNat 8 (a.toNat * 2)

/-- The bit a left shift moves out: bit 7 (R170). -/
def shlFlag (a : Byte) : Byte := flag (a.getLsbD 7)

end Sys2Proof.Machine
end

