-- ==== Sys2Proof/Machine/Alu.lean ====
section
/-! DEFINITION. The meanings of the register load and ALU instructions (R160 to R171). -/
namespace Sys2Proof.Machine

/-- 6xnn, LD Vx, nn (R160). -/
def execLdImm (x : Nibble) (nn : Byte) (s : State) : Result := .next ((s.setReg x nn).finish .next)

/-- 7xnn, ADD Vx, nn (R161): wraps, writes no flag. -/
def execAddImm (x : Nibble) (nn : Byte) (s : State) : Result :=
  .next ((s.setReg x (addByte (s.reg x) nn)).finish .next)

/-- 8xy0, LD Vx, Vy (R162). -/
def execLdReg (x y : Nibble) (s : State) : Result := .next ((s.setReg x (s.reg y)).finish .next)

/-- 8xy1, OR Vx, Vy (R163). -/
def execOrReg (x y : Nibble) (s : State) : Result :=
  .next ((s.setReg x (s.reg x ||| s.reg y)).finish .next)

/-- 8xy2, AND Vx, Vy (R164). -/
def execAndReg (x y : Nibble) (s : State) : Result :=
  .next ((s.setReg x (s.reg x &&& s.reg y)).finish .next)

/-- 8xy3, XOR Vx, Vy (R165). -/
def execXorReg (x y : Nibble) (s : State) : Result :=
  .next ((s.setReg x (s.reg x ^^^ s.reg y)).finish .next)

/-- 8xy4, ADD Vx, Vy (R166). -/
def execAddReg (x y : Nibble) (s : State) : Result :=
  .next ((s.setRegFlag x (addByte (s.reg x) (s.reg y)) (carryFlag (s.reg x) (s.reg y))).finish .next)

/-- 8xy5, SUB Vx, Vy (R167). -/
def execSubReg (x y : Nibble) (s : State) : Result :=
  .next ((s.setRegFlag x (subByte (s.reg x) (s.reg y)) (noBorrowFlag (s.reg x) (s.reg y))).finish .next)

/-- 8xy6, SHR Vx (R168): V[x] in place, `y` is not used. -/
def execShr (x _y : Nibble) (s : State) : Result :=
  .next ((s.setRegFlag x (shrByte (s.reg x)) (shrFlag (s.reg x))).finish .next)

/-- 8xy7, SUBN Vx, Vy (R169): V[y] - V[x]. -/
def execSubnReg (x y : Nibble) (s : State) : Result :=
  .next ((s.setRegFlag x (subByte (s.reg y) (s.reg x)) (noBorrowFlag (s.reg y) (s.reg x))).finish .next)

/-- 8xyE, SHL Vx (R170): V[x] in place, `y` is not used. -/
def execShl (x _y : Nibble) (s : State) : Result :=
  .next ((s.setRegFlag x (shlByte (s.reg x)) (shlFlag (s.reg x))).finish .next)

end Sys2Proof.Machine
end

