-- ==== Sys2Proof/Machine/Operands.lean ====
section
/-! DEFINITION. The operand forms: immediates (R93), the skip target (R126), the effective addresses
through I (R186), the glyph address (R182) and the key selected by a register (R210). -/
namespace Sys2Proof.Machine

/-- `zext_16(nnn)` (R93). -/
def zext16 (nnn : Imm12) : Word := nnn.setWidth 16

/-- The base address an instruction that accesses Memory through I uses: I as a natural number, so
that adding an offset never wraps (R60, R186). -/
def State.base (s : State) : Nat := s.i.toNat

/-- The outcome of a skip: `Goto(trunc_16(PC + 4))` when the condition holds, else `Next` (R126). -/
def State.skipIf (s : State) (cond : Bool) : OutcomeKind := if cond then .goto (s.pc + 4) else .next

/-- The return address CALL pushes: `trunc_16(PC + 2)` (R144). -/
def State.returnAddress (s : State) : Word := s.pc + 2

/-- The target of JP V0, nnn: `V[0] + zext_16(nnn)` (R145). -/
def State.jumpV0Target (s : State) (nnn : Imm12) : Word :=
  BitVec.ofNat 16 ((s.reg 0x0#4).toNat + nnn.toNat)

/-- `trunc_16(I + V[x])` (R181). -/
def State.indexSum (s : State) (x : Nibble) : Word :=
  BitVec.ofNat 16 (s.i.toNat + (s.reg x).toNat)

/-- The address of the glyph a byte selects: `0x0050 + 5 * V[x]`, all 8 bits used (R182). -/
def glyphAddress (b : Byte) : Word := BitVec.ofNat 16 (fontBase + 5 * b.toNat)

/-- The key SKP and SKNP test: the low four bits of V[x] (R210). -/
def State.keyNumber (s : State) (x : Nibble) : Nibble := (s.reg x).extractLsb' 0 4

/-- The hundreds, tens and units digits of a byte, the bytes LD B, Vx stores (R183). -/
def bcd (b : Byte) : List Byte :=
  [BitVec.ofNat 8 (b.toNat / 100), BitVec.ofNat 8 (b.toNat / 10 % 10), BitVec.ofNat 8 (b.toNat % 10)]

end Sys2Proof.Machine
end

