-- ==== Sys2Proof/Machine/ControlFlow.lean ====
section
/-! DEFINITION. The meanings of the control flow instructions (R141 to R149). -/
namespace Sys2Proof.Machine

/-- 00EE, RET (R141): a fault on an empty stack (R235), else PC becomes the popped value. -/
def execRet (s : State) : Result :=
  if s.sp = 0 then .next (s.takeFault .stackUnderflow s.sp.toNat (encode .ret))
  else .next (s.pop.finish (.goto s.top))

/-- 00kk, HALT (R142): `kk` is ignored. -/
def execHalt (_kk : Byte) (s : State) : Result := .next (s.finish .halt)

/-- 1nnn, JP nnn (R143). -/
def execJp (nnn : Imm12) (s : State) : Result := .next (s.finish (.goto (zext16 nnn)))

/-- 2nnn, CALL nnn (R144): a fault on a full stack (R235), else the return address is pushed. -/
def execCall (nnn : Imm12) (s : State) : Result :=
  if s.sp.toNat = s.params.stackDepth then
    .next (s.takeFault .stackOverflow s.sp.toNat (encode (.call nnn)))
  else .next ((s.push s.returnAddress).finish (.goto (zext16 nnn)))

/-- Bnnn, JP V0, nnn (R145). -/
def execJpV0 (nnn : Imm12) (s : State) : Result := .next (s.finish (.goto (s.jumpV0Target nnn)))

/-- 3xnn, SE Vx, nn (R146). -/
def execSeImm (x : Nibble) (nn : Byte) (s : State) : Result :=
  .next (s.finish (s.skipIf (s.reg x == nn)))

/-- 4xnn, SNE Vx, nn (R147). -/
def execSneImm (x : Nibble) (nn : Byte) (s : State) : Result :=
  .next (s.finish (s.skipIf (s.reg x != nn)))

/-- 5xy0, SE Vx, Vy (R148). -/
def execSeReg (x y : Nibble) (s : State) : Result :=
  .next (s.finish (s.skipIf (s.reg x == s.reg y)))

/-- 9xy0, SNE Vx, Vy (R149). -/
def execSneReg (x y : Nibble) (s : State) : Result :=
  .next (s.finish (s.skipIf (s.reg x != s.reg y)))

end Sys2Proof.Machine
end

