-- ==== Sys2Proof/Machine/Display.lean ====
section
/-! DEFINITION. The meanings of the display instructions (R200 to R202). -/
namespace Sys2Proof.Machine

/-- 00E0, CLS (R200). -/
def execCls (s : State) : Result := .next ((s.setFb (clearFb s.params)).finish .next)

/-- The framebuffer and the collision after plotting the sprite of `n` rows at I from (V[x], V[y])
(R202). -/
def State.afterSprite (s : State) (x y n : Nibble) : Framebuffer × Bool :=
  plot (spritePlaces s.params s.mem s.base (s.reg x).toNat (s.reg y).toNat n.toNat) (s.fb, false)

/-- Dxyn, DRW Vx, Vy, n (R202): the sprite's addresses are checked before anything is drawn; VF is
written last. -/
def execDrw (x y n : Nibble) (s : State) : Result :=
  match s.outOfBounds s.base n.toNat with
  | some a => .next (s.takeFault .oobDataRead a (encode (.drw x y n)))
  | none =>
    .next (((s.setFb (s.afterSprite x y n).1).setReg 0xF#4 (flag (s.afterSprite x y n).2)).finish .next)

end Sys2Proof.Machine
end

