-- ==== Sys2Proof/Machine/IndexMemory.lean ====
section
/-! DEFINITION. The meanings of the index register and memory instructions (R180 to R186). -/
namespace Sys2Proof.Machine

/-- Annn, LD I, nnn (R180). -/
def execLdI (nnn : Imm12) (s : State) : Result := .next ((s.setI (zext16 nnn)).finish .next)

/-- Fx1E, ADD I, Vx (R181): wraps modulo 2^16, writes no flag. -/
def execAddI (x : Nibble) (s : State) : Result := .next ((s.setI (s.indexSum x)).finish .next)

/-- Fx29, LD F, Vx (R182). -/
def execLdF (x : Nibble) (s : State) : Result := .next ((s.setI (glyphAddress (s.reg x))).finish .next)

/-- A store of `bytes` from I upward by the instruction whose word is `word`: every address is checked
before any byte is written (R65). -/
def storeAtI (bytes : List Byte) (word : Word) (s : State) : Result :=
  match s.outOfBounds s.base bytes.length with
  | some a => .next (s.takeFault .oobDataWrite a word)
  | none => .next ((s.store s.base bytes).finish .next)

/-- Fx33, LD B, Vx (R183). -/
def execLdB (x : Nibble) (s : State) : Result := storeAtI (bcd (s.reg x)) (encode (.ldB x)) s

/-- Fx55, LD [I], Vx (R184). -/
def execStoreRegs (x : Nibble) (s : State) : Result :=
  storeAtI (s.regsUpTo x) (encode (.storeRegs x)) s

/-- Fx65, LD Vx, [I] (R185). -/
def execLoadRegs (x : Nibble) (s : State) : Result :=
  match s.outOfBounds s.base (x.toNat + 1) with
  | some a => .next (s.takeFault .oobDataRead a (encode (.loadRegs x)))
  | none => .next ((s.loadFrom s.base (x.toNat + 1)).finish .next)

end Sys2Proof.Machine
end

