-- ==== Sys2Proof/Machine/KeysTimersRandom.lean ====
section
/-! DEFINITION. The meanings of the keyboard, timer and random instructions (R210 to R217). -/
namespace Sys2Proof.Machine

/-- Ex9E, SKP Vx (R211). -/
def execSkp (x : Nibble) (s : State) : Result :=
  .next (s.finish (s.skipIf (s.key (s.keyNumber x))))

/-- ExA1, SKNP Vx (R212). -/
def execSknp (x : Nibble) (s : State) : Result :=
  .next (s.finish (s.skipIf (!s.key (s.keyNumber x))))

/-- Fx0A, LD Vx, K (R213): wait while no flag is set, else take the lowest-numbered key. -/
def execLdVxK (x : Nibble) (s : State) : Result :=
  match s.lowestKey with
  | none => .next (s.finish .wait)
  | some k => .next ((s.setReg x (k.setWidth 8)).finish .next)

/-- Fx07, LD Vx, DT (R214). -/
def execLdVxDt (x : Nibble) (s : State) : Result := .next ((s.setReg x s.dt).finish .next)

/-- Fx15, LD DT, Vx (R215). -/
def execLdDtVx (x : Nibble) (s : State) : Result := .next ((s.setDt (s.reg x)).finish .next)

/-- Fx18, LD ST, Vx (R216). -/
def execLdStVx (x : Nibble) (s : State) : Result := .next ((s.setSt (s.reg x)).finish .next)

/-- Cxnn with the random byte `rnd` of the cycle (R217): assign, the old V[x] does not enter. -/
def rndWith (rnd : Byte) (x : Nibble) (nn : Byte) (s : State) : State :=
  (s.setReg x (rnd &&& nn)).finish .next

/-- Cxnn, RND Vx, nn (R217): the byte is the free input of this cycle (R222). -/
def execRnd (x : Nibble) (nn : Byte) (s : State) : Result :=
  .next (rndWith (Config.rndInput s.rndDraws) x nn s.drawn)

end Sys2Proof.Machine
end

