-- ==== Sys2Proof/Machine/Cycle.lean ====
section
/-! DEFINITION. The Cycle operation (R120 to R130): the mode gate, the fetch, the decoding, the
instruction, and the three results returned to the host (R129). -/
namespace Sys2Proof.Machine

/-- The `status` result of a cycle (R129). -/
inductive Status where
  | ok
  | decodeFail
  | fault
  | idle
  deriving DecidableEq, Repr

/-- The results a Cycle operation returns; they are not state (R39, R129). -/
structure CycleResult where
  redraw : Bool
  status : Status
  badInstr : Word
  deriving DecidableEq, Repr

/-- The 2-bit code of `status` (R129). -/
def Status.code : Status → BitVec 2
  | .ok => 0
  | .decodeFail => 1
  | .fault => 2
  | .idle => 3

/-- The instruction word at PC, high byte first (R67). -/
def State.fetchWord (s : State) : Word :=
  wordOfBytes (s.mem.read s.pc.toNat) (s.mem.read (s.pc.toNat + 1))

/-- The fetch `MemRead(PC, 2)` (R66, R123): the word, or the smallest address outside Memory. -/
def State.fetch (s : State) : Except Nat Word :=
  match s.outOfBounds s.pc.toNat 2 with
  | some a => .error a
  | none => .ok s.fetchWord

/-- The instructions that mark a redraw (R203). -/
def redraws : Instr → Bool
  | .cls | .drw _ _ _ => true
  | .ret | .halt _ | .jp _ | .call _ | .seImm _ _ | .sneImm _ _ | .seReg _ _ | .ldImm _ _ => false
  | .addImm _ _ | .ldReg _ _ | .orReg _ _ | .andReg _ _ | .xorReg _ _ | .addReg _ _ => false
  | .subReg _ _ | .shr _ _ | .subnReg _ _ | .shl _ _ | .sneReg _ _ | .ldI _ | .jpV0 _ => false
  | .rnd _ _ | .skp _ | .sknp _ | .ldVxDt _ | .ldVxK _ | .ldDtVx _ | .ldStVx _ | .addI _ => false
  | .ldF _ | .ldB _ | .storeRegs _ | .loadRegs _ => false

/-- The results of a cycle that executed `i`, fetched as `word`, and ended in `t` (R129). -/
def executedResult (i : Instr) (word : Word) (t : State) : CycleResult :=
  if t.mode = .faulted then ⟨false, .fault, word⟩ else ⟨redraws i, .ok, 0⟩

/-- One Cycle operation (R130): the state after it, and its results. The random byte it would be
given is the free input of R222. The gate and the fetch stand here, the end of the cycle in the
meanings (DESIGN CHOICE, safe: notes/assumptions/12.md). -/
def cycle (s : State) : Host.Outcome (State × CycleResult) Fault Refusal :=
  if s.mode.stopped then .next (s, ⟨false, .idle, 0⟩)
  else
    match s.fetch with
    | .error a => .next (s.takeFault .oobFetch a 0, ⟨false, .fault, 0⟩)
    | .ok w =>
      match decode w with
      | .error _ => .next (s.decodeFailure, ⟨false, .decodeFail, w⟩)
      | .ok i =>
        match exec i s with
        | .next t => .next (t, executedResult i w t)
        | .fault c => .fault c
        | .refused r => .refused r

/-- The state with the word `w` stored at PC, high byte first (R67). -/
def State.placeWord (s : State) (w : Word) : State :=
  { s with mem := (s.mem.write s.pc.toNat (highByte w)).write (s.pc.toNat + 1) (lowByte w) }

end Sys2Proof.Machine
end

