-- ==== Sys2Proof/Machine/Step.lean ====
section
/-! DEFINITION. One step of the machine: the Cycle operation (R130), its results left out. -/
namespace Sys2Proof.Machine

/-- One Cycle operation (R130). Its results are `cycle`'s second component (R129). DESIGN CHOICE:
notes/assumptions/6.md (the results, safe), 10.md (the host's other operations stand beside it). -/
def step (s : State) : Host.Outcome State Fault Refusal :=
  match cycle s with
  | .next (t, _) => .next t
  | .fault c => .fault c
  | .refused r => .refused r

/-- `s` with a table row's instruction of `nbits` bits stored at PC, where `step` fetches: one 16-bit
word whose bits from `nbits` up are 0. Nothing but those two bytes of Memory changes. DESIGN CHOICE,
safe: notes/assumptions/5.md. -/
def State.withFetchWord (s : State) (nbits w : Nat) : State :=
  s.placeWord (BitVec.ofNat 16 (w % 2 ^ nbits))

end Sys2Proof.Machine
end

