-- ==== Sys2Proof/Machine/HostOps.lean ====
section
/-! DEFINITION. The host's operations on the core besides Cycle (R284): PowerOn, Reset, LoadProgram,
WriteKey and TickTimers, and what the host may read (R41). -/
namespace Sys2Proof.Machine

/-- PowerOn (R270): the machine of R40 for legal parameters (R271), and no run for others. -/
def powerOn (p : Params) : Host.Outcome State Fault Refusal :=
  if p.legal then .next (State.afterPowerOn p) else .refused .illegalParameters

/-- Reset (R272): every element as after PowerOn, but Memory keeps every byte outside the font table,
which is written again (R273). The parameters stay, and the count of random draws is no state of the
spec and stays too (notes/assumptions/2.md). -/
def State.hostReset (s : State) : State :=
  { State.afterPowerOn s.params with
    mem := s.mem.writeBytes fontBase font
    rndDraws := s.rndDraws }

/-- LoadProgram (R274, R275): the state, and the result `ok`. -/
def State.loadProgram (s : State) (bytes : List Byte) : State × Bool :=
  if progBase + bytes.length > s.params.memSize then (s, false)
  else (s.store progBase bytes, true)

/-- WriteKey (R252). -/
def State.writeKey (s : State) (k : Nibble) (b : Bool) : State :=
  { s with keys := s.keys.set k.toNat b k.isLt }

/-- One timer's countdown: by 1, and 0 stays 0 (R250, R251). -/
def tick (t : Byte) : Byte := if t.toNat > 0 then BitVec.ofNat 8 (t.toNat - 1) else t

/-- TickTimers (R250): it works in every MODE and changes DT and ST alone. -/
def State.tickTimers (s : State) : State := { s with dt := tick s.dt, st := tick s.st }

/-- The operations the host performs on an existing machine (R284), one at a time (R285). Cycle's
random byte is the free input of R222. -/
inductive HostOp where
  | reset
  | loadProgram (bytes : List Byte)
  | writeKey (k : Nibble) (b : Bool)
  | tickTimers
  | cycle
  deriving DecidableEq, Repr

/-- The effect of one host operation (R284). -/
def applyOp (s : State) : HostOp → Host.Outcome State Fault Refusal
  | .reset => .next s.hostReset
  | .loadProgram bytes => .next (s.loadProgram bytes).1
  | .writeKey k b => .next (s.writeKey k b)
  | .tickTimers => .next s.tickTimers
  | .cycle => step s

/-- What the host may read between operations (R41). -/
structure HostView where
  fb : Framebuffer
  st : Byte
  dt : Byte
  mode : Mode
  faultCause : BitVec 3
  faultAddr : BitVec 17
  faultInstr : Word
  cycles : BitVec 64
  decodeFails : BitVec 64
  deriving DecidableEq, Repr

/-- The host's read access (R41). Reading has no side effect: this is a function of the state. -/
def State.hostView (s : State) : HostView :=
  ⟨s.fb, s.st, s.dt, s.mode, s.faultCause, s.faultAddr, s.faultInstr, s.cycles, s.decodeFails⟩

end Sys2Proof.Machine
end

