-- ==== Sys2Proof/Safety.lean ====
section
/-! DEFINITION. The terms claims are stated in: the machine's invariant, the end of a run (R287), and
the bits of a sprite and the pixels they land on. -/
namespace Sys2Proof.Machine

/-- The shape of the storages PowerOn sized (R43, R270), Memory in its canonical form and within
MEM_SIZE (R60). -/
abbrev State.shaped (s : State) : Prop :=
  s.params.legal ∧ s.mem.wf ∧ (∀ c ∈ s.mem, c.1 < s.params.memSize) ∧
    s.stack.length = s.params.stackDepth ∧ s.fb.length = s.params.dispH ∧
    ∀ row ∈ s.fb, row.length = s.params.dispW

/-- SP counts the return addresses on the Stack: 0 to STACK_DEPTH (R25). -/
abbrev State.spInRange (s : State) : Prop := s.sp.toNat ≤ s.params.stackDepth

/-- The fault registers hold a cause of R231 exactly in MODE Faulted, and 0 otherwise (R29, R236,
R238). -/
abbrev State.faultRegsAgree (s : State) : Prop :=
  s.faultCause.toNat ≤ 5 ∧ (s.mode = .faulted ↔ s.faultCause ≠ 0) ∧
    (s.faultCause = 0 → s.faultAddr = 0 ∧ s.faultInstr = 0)

/-- The machine's invariant: it holds after PowerOn and Reset, and every operation keeps it. -/
abbrev State.inv (s : State) : Prop := s.shaped ∧ s.spInRange ∧ s.faultRegsAgree

/-- A run is over: MODE is Halted or Faulted (R287). -/
abbrev State.runOver (s : State) : Prop := s.mode = .halted ∨ s.mode = .faulted

/-- Executing: a Cycle operation fetches (R122). -/
abbrev State.live (s : State) : Prop := s.mode = .running ∨ s.mode = .waitingForKey

/-- Both bytes of the instruction at PC are inside Memory (R66). -/
abbrev State.fetchInBounds (s : State) : Prop := s.pc.toNat + 1 < s.params.memSize

/-- How a state stands to the one its cycle began in when the instruction had outcome `Next` and wrote
V alone (R125 to R128, R140): everything but V, K, PC, MODE and CYCLES is as before. -/
abbrev State.endsNextWritingV (s t : State) : Prop :=
  t = { s with v := t.v, keys := noKeys, pc := s.pc + 2, mode := .running, cycles := s.cycles + 1 }

/-- The rows and columns of a sprite in the order R202 plots them: rows ascending, columns left to
right, of those bits of the sprite bytes at I that are 1 (bit 7 of a byte is column 0, R201). -/
def State.spriteBits (s : State) (n : Nibble) : List (Nat × Nat) :=
  ((List.range n.toNat).product (List.range 8)).filter fun rc =>
    (s.mem.read (s.i.toNat + rc.1)).getLsbD (7 - rc.2)

/-- The pixel `(py, px)` a sprite bit at row `r`, column `c` lands on when DRW Vx, Vy draws it: each
axis wrapped on its own (R202). -/
def State.landsOn (s : State) (x y : Nibble) (rc : Nat × Nat) : Nat × Nat :=
  (((s.reg y).toNat + rc.1) % s.params.dispH, ((s.reg x).toNat + rc.2) % s.params.dispW)

/-- `trunc_16(PC + 4)` when the condition holds, else `trunc_16(PC + 2)` (R23). -/
def State.pcSkip (s : State) (cond : Bool) : Nat := (s.pc.toNat + if cond then 4 else 2) % 65536

/-- R23's table: the value of PC after a cycle that ends in Running, from what its word decoded to.
HALT and a waiting LD Vx, K end in other modes. -/
def State.pcByTable (s : State) : Except Unrecognized Instr → Nat
  | .ok (.jp nnn) | .ok (.call nnn) => nnn.toNat
  | .ok .ret => (s.stack.getD (s.sp.toNat - 1) 0).toNat
  | .ok (.jpV0 nnn) => (s.reg 0x0#4).toNat + nnn.toNat
  | .ok (.seImm x nn) => s.pcSkip (s.reg x = nn)
  | .ok (.sneImm x nn) => s.pcSkip (s.reg x ≠ nn)
  | .ok (.seReg x y) => s.pcSkip (s.reg x = s.reg y)
  | .ok (.sneReg x y) => s.pcSkip (s.reg x ≠ s.reg y)
  | .ok (.skp x) => s.pcSkip (s.key (BitVec.ofNat 4 ((s.reg x).toNat % 16)))
  | .ok (.sknp x) => s.pcSkip (!s.key (BitVec.ofNat 4 ((s.reg x).toNat % 16)))
  | .ok .cls | .ok (.halt _) | .ok (.ldImm _ _) | .ok (.addImm _ _) | .ok (.ldReg _ _)
  | .ok (.orReg _ _) | .ok (.andReg _ _) | .ok (.xorReg _ _) | .ok (.addReg _ _) | .ok (.subReg _ _)
  | .ok (.shr _ _) | .ok (.subnReg _ _) | .ok (.shl _ _) | .ok (.ldI _) | .ok (.rnd _ _)
  | .ok (.drw _ _ _) | .ok (.ldVxDt _) | .ok (.ldVxK _) | .ok (.ldDtVx _) | .ok (.ldStVx _)
  | .ok (.addI _) | .ok (.ldF _) | .ok (.ldB _) | .ok (.storeRegs _) | .ok (.loadRegs _) | .error _ =>
    (s.pc.toNat + 2) % 65536

end Sys2Proof.Machine
end

