-- ==== Sys2Proof/Certificates/Slice0/Obligations.lean ====
section
/-! DEFINITION. The statements for the provers. Each docstring names the rules of spec/ it formalises.
Every instruction's statement gives the word it is decoded from (its row of R95), the state it
completes in, as an equation that also fixes everything it leaves unchanged, and its fault entry. -/
open Sys2Proof Sys2Proof.Machine

/-! ### Encoding -/

/-- R95, R93: decoding the word of a well-formed instruction gives the instruction, every field at
every value the encoding admits. -/
def Obligations.DecodeOfEncode : Prop :=
  ∀ i : Instr, i.wellFormed = true → decode (encode i) = .ok i

/-- R94, R95: a word the decoder accepts is the word of a well-formed instruction, so no bit of it is
lost. FAULT_INSTR, which the meanings write as `encode i`, is therefore the word fetched. -/
def Obligations.EncodeOfDecode : Prop :=
  ∀ (w : Word) (i : Instr), decode w = .ok i → i.wellFormed = true ∧ encode i = w

/-- R95: a word is decoded to a row of the opcode map iff it matches the row's mask and match, and,
for the halt row, is neither 0x00E0 nor 0x00EE. -/
def Obligations.OpcodeMapSelectsTheRow : Prop :=
  ∀ (w : Word) (i : Instr), i.wellFormed = true →
    ((∃ j, decode w = .ok j ∧ rowMatch j = rowMatch i) ↔
      (w &&& rowMask i = rowMatch i ∧ (rowMatch i = 0x0000 → w ≠ 0x00E0 ∧ w ≠ 0x00EE)))

/-- R100: the unrecognized words are exactly those of its table. -/
def Obligations.UnrecognizedWordsAreTheTable : Prop :=
  ∀ op x y n : Nibble,
    (∃ e, decode (wordXyn op x y n) = .error e) ↔
      (op.toNat = 0x0 ∧ x.toNat ≠ 0) ∨ (op.toNat = 0x5 ∧ n.toNat ≠ 0) ∨
      (op.toNat = 0x8 ∧ n.toNat ∈ [0x8, 0x9, 0xA, 0xB, 0xC, 0xD, 0xF]) ∨
      (op.toNat = 0x9 ∧ n.toNat ≠ 0) ∨
      (op.toNat = 0xE ∧ y.toNat * 16 + n.toNat ∉ [0x9E, 0xA1]) ∨
      (op.toNat = 0xF ∧ y.toNat * 16 + n.toNat ∉ [0x07, 0x0A, 0x15, 0x18, 0x1E, 0x29, 0x33, 0x55, 0x65])

/-- R95, R98, R100: a few words, written out from the patterns of the opcode map. -/
def Obligations.SampleWordsDecode : Prop :=
  decode 0x00FD = .ok (.halt 0xFD) ∧ decode 0x00E0 = .ok .cls ∧ decode 0x00EE = .ok .ret ∧
  decode 0x220C = .ok (.call 0x20C) ∧ decode 0x8F14 = .ok (.addReg 0xF 0x1) ∧
  decode 0xA300 = .ok (.ldI 0x300) ∧ decode 0xD015 = .ok (.drw 0x0 0x1 0x5) ∧
  decode 0xE3A1 = .ok (.sknp 0x3) ∧ decode 0xF265 = .ok (.loadRegs 0x2) ∧
  decode 0x5121 = .error .group5LowNibble ∧ decode 0x01E0 = .error .group0HighByte

/-! ### The cycle -/

/-- R120, R123, R124: when the bytes at PC are in Memory and decode to an instruction, a step of a
machine that is not stopped is that instruction's `exec`, with nothing added around it. -/
def Obligations.StepRunsTheDecodedInstruction : Prop :=
  ∀ (s : State) (i : Instr), s.live → s.fetchInBounds →
    decode (wordOfBytes (s.mem.read s.pc.toNat) (s.mem.read (s.pc.toNat + 1))) = .ok i →
    step s = exec i s

/-- R122: in Halted and in Faulted nothing is fetched, no state changes, and the results are redraw 0,
status IDLE and bad_instr 0. -/
def Obligations.IdleCycleChangesNothing : Prop :=
  ∀ s : State, s.runOver → step s = .next s ∧ cycle s = .next (s, ⟨false, .idle, 0⟩)

/-- R66, R123, R231, R236: a fetch at a PC whose two bytes are not both in Memory is a faulting cycle
with cause OOB_FETCH, the address the smaller one outside Memory, and instruction word 0. -/
def Obligations.FetchOutsideMemoryFaults : Prop :=
  ∀ s : State, s.live → s.params.memSize ≤ s.pc.toNat + 1 →
    cycle s = .next
      ({ s with
          mode := .faulted
          faultCause := 1
          faultAddr := BitVec.ofNat 17 (if s.params.memSize ≤ s.pc.toNat then s.pc.toNat else s.pc.toNat + 1)
          faultInstr := 0 },
        ⟨false, .fault, 0⟩)

/-- R233: the cycle of an unrecognized word is a counted two-byte no-op that reports DECODE_FAIL with
the word. -/
def Obligations.UnrecognizedWordIsACountedNoOp : Prop :=
  ∀ (s : State) (e : Unrecognized), s.live → s.fetchInBounds → decode s.fetchWord = .error e →
    cycle s = .next
      ({ s with
          decodeFails := s.decodeFails + 1
          keys := noKeys
          pc := s.pc + 2
          mode := .running
          cycles := s.cycles + 1 },
        ⟨false, .decodeFail, s.fetchWord⟩)

/-- R129, R203: what a cycle reports, whatever it does, and the codes of `status`. -/
def Obligations.CycleReportsItsResults : Prop :=
  ∀ s : State, ∃ t r, cycle s = .next (t, r) ∧ step s = .next t ∧
    (r.status = .idle ↔ s.runOver) ∧
    (r.status = .fault ↔ s.live ∧ t.mode = .faulted) ∧
    (r.status = .decodeFail ↔ s.live ∧ s.fetchInBounds ∧ ∃ e, decode s.fetchWord = .error e) ∧
    (r.redraw = true ↔ r.status = .ok ∧
      (decode s.fetchWord = .ok .cls ∨ ∃ x y n, decode s.fetchWord = .ok (.drw x y n))) ∧
    r.badInstr =
      (if r.status = .decodeFail ∨ (r.status = .fault ∧ s.fetchInBounds) then s.fetchWord else 0) ∧
    Status.ok.code = 0 ∧ Status.decodeFail.code = 1 ∧ Status.fault.code = 2 ∧ Status.idle.code = 3

/-- R131: a cycle begun in WaitingForKey does what the same cycle begun in Running does. -/
def Obligations.WaitingNeverChangesTheNextCycle : Prop :=
  ∀ s : State, step { s with mode := .waitingForKey } = step { s with mode := .running }

/-- R125, R126, R127, R128: how an executing cycle that does not fault ends, told from the mode it
ends in: keys preserved and PC kept when waiting, PC kept when halted, keys cleared otherwise, and
the cycle counted. -/
def Obligations.EndOfCycleFollowsTheOutcome : Prop :=
  ∀ s t : State, s.live → step s = .next t → t.mode ≠ .faulted →
    t.cycles = s.cycles + 1 ∧
    (t.mode = .waitingForKey → t.keys = s.keys ∧ t.pc = s.pc) ∧
    (t.mode = .halted → t.keys = noKeys ∧ t.pc = s.pc) ∧
    (t.mode = .running → t.keys = noKeys)

/-- R23: how each instruction leaves PC. A cycle that is idle, faults, waits or halts keeps it; every
other cycle leaves it as R23's table says, modulo 2^16. -/
def Obligations.HowEachCycleLeavesPc : Prop :=
  ∀ s t : State, step s = .next t →
    (t.mode ≠ .running → t.pc = s.pc) ∧
    (s.live → t.mode = .running → t.pc.toNat = s.pcByTable (decode s.fetchWord))

/-- R246: the mode state machine over the operations of R284. -/
def Obligations.ModeStateMachine : Prop :=
  ∀ (s t : State) (op : HostOp), applyOp s op = .next t →
    (op = .reset → t.mode = .running) ∧
    (op ≠ .reset → op ≠ .cycle → t.mode = s.mode) ∧
    (op = .cycle → s.runOver → t.mode = s.mode) ∧
    (op = .cycle → s.live →
      (t.mode = .faulted ↔
        ¬ s.fetchInBounds ∨ ∃ i u, decode s.fetchWord = .ok i ∧ exec i s = .next u ∧ u.mode = .faulted) ∧
      (t.mode = .halted ↔ s.fetchInBounds ∧ ∃ kk, decode s.fetchWord = .ok (.halt kk)) ∧
      (t.mode = .waitingForKey ↔
        s.fetchInBounds ∧ (∀ k, s.key k = false) ∧ ∃ x, decode s.fetchWord = .ok (.ldVxK x)))

/-! ### Reset, PowerOn and the invariant -/

/-- R40, R270, R5: every element right after PowerOn with the default parameters. The values 4096, 64,
32 and 16 are the spec's defaults; the model's own field `rndDraws` is not mentioned. -/
def Obligations.ResetValues : Prop :=
  State.reset.params = ⟨4096, 64, 32, 16⟩ ∧
  (∀ x, State.reset.reg x = 0) ∧ State.reset.i = 0 ∧ State.reset.pc = 0x0200 ∧ State.reset.sp = 0 ∧
  State.reset.dt = 0 ∧ State.reset.st = 0 ∧ State.reset.stack = List.replicate 16 0 ∧
  (∀ k, State.reset.key k = false) ∧ State.reset.fb = List.replicate 32 (List.replicate 64 false) ∧
  State.reset.mode = .running ∧ State.reset.faultCause = 0 ∧ State.reset.faultAddr = 0 ∧
  State.reset.faultInstr = 0 ∧ State.reset.cycles = 0 ∧ State.reset.decodeFails = 0 ∧
  (∀ j, j < 80 → State.reset.mem.read (0x050 + j) = font.getD j 0) ∧
  ∀ a, a < 0x050 ∨ 0x0A0 ≤ a → State.reset.mem.read a = 0

/-- R25, R29, R35, R43, R60, R238: every step keeps the machine's invariant: the storages keep the
sizes PowerOn gave them, Memory its canonical form within MEM_SIZE, SP stays in 0 to STACK_DEPTH,
and the fault registers hold a cause of R231 exactly in Faulted. -/
def Obligations.StepKeepsTheInvariant : Prop :=
  ∀ s t : State, s.inv → step s = .next t → t.inv

/-- R40, R43: the reset state meets the invariant. -/
def Obligations.ResetMeetsTheInvariant : Prop := State.reset.inv

/-- R270, R271: PowerOn answers a machine that meets the invariant for legal parameters, and gives no
run for others. -/
def Obligations.PowerOnMeetsTheInvariant : Prop :=
  ∀ p : Params,
    (p.legal → ∃ s, powerOn p = .next s ∧ s.params = p ∧ s.inv) ∧
    (¬ p.legal → powerOn p = .refused .illegalParameters)

/-- R284: every host operation on a machine that meets the invariant completes and keeps it, and the
parameters never change (R270). -/
def Obligations.HostOperationsKeepTheInvariant : Prop :=
  ∀ (s : State) (op : HostOp), s.inv → ∃ t, applyOp s op = .next t ∧ t.inv ∧ t.params = s.params

/-! ### Faults -/

/-- R236: a cycle that faults writes MODE and the three fault registers and nothing else, with a cause
of R231 that is not NONE and FAULT_INSTR the word fetched (0 if it could not be fetched), and reports
redraw 0, status FAULT and that word. -/
def Obligations.FaultEntryWritesFourElements : Prop :=
  ∀ (s t : State) (r : CycleResult), s.live → cycle s = .next (t, r) → t.mode = .faulted →
    t = { s with
          mode := .faulted
          faultCause := t.faultCause
          faultAddr := t.faultAddr
          faultInstr := t.faultInstr } ∧
    (1 ≤ t.faultCause.toNat ∧ t.faultCause.toNat ≤ 5) ∧
    t.faultInstr = (if s.fetchInBounds then s.fetchWord else 0) ∧
    r = ⟨false, .fault, t.faultInstr⟩

/-- R231, R232: which instruction can end in which fault, and what FAULT_ADDR then holds. -/
def Obligations.WhichInstructionFaultsHow : Prop :=
  ∀ (i : Instr) (s t : State), exec i s = .next t → t.mode = .faulted →
    (i = .ret ∧ s.sp = 0 ∧ t.faultCause = 5 ∧ t.faultAddr = 0) ∨
    ((∃ nnn, i = .call nnn) ∧ s.sp.toNat = s.params.stackDepth ∧ t.faultCause = 4 ∧
      t.faultAddr = s.sp.setWidth 17) ∨
    (((∃ x y n, i = .drw x y n ∧ n ≠ 0) ∨ ∃ x, i = .loadRegs x) ∧ t.faultCause = 2 ∧
      t.faultAddr = BitVec.ofNat 17 (max s.i.toNat s.params.memSize)) ∨
    (((∃ x, i = .ldB x) ∨ ∃ x, i = .storeRegs x) ∧ t.faultCause = 3 ∧
      t.faultAddr = BitVec.ofNat 17 (max s.i.toNat s.params.memSize))

/-- R238, R239: in Faulted, no operation but Reset changes the mode or a fault register. -/
def Obligations.FaultIsKeptUntilReset : Prop :=
  ∀ (s t : State) (op : HostOp), s.mode = .faulted → op ≠ .reset → applyOp s op = .next t →
    t.mode = .faulted ∧ t.faultCause = s.faultCause ∧ t.faultAddr = s.faultAddr ∧
      t.faultInstr = s.faultInstr

/-! ### Register loads and the ALU -/

/-- R160, R162, R214: LD Vx, nn, LD Vx, Vy and LD Vx, DT write V[x] alone. -/
def Obligations.LoadsIntoARegister : Prop :=
  ∀ (x y : Nibble) (nn : Byte),
    decode (wordXnn 0x6#4 x nn) = .ok (.ldImm x nn) ∧
    decode (wordXyn 0x8#4 x y 0x0#4) = .ok (.ldReg x y) ∧
    decode (wordXnn 0xF#4 x 0x07#8) = .ok (.ldVxDt x) ∧
    ∀ s : State, ∃ t u w,
      exec (.ldImm x nn) s = .next t ∧ exec (.ldReg x y) s = .next u ∧ exec (.ldVxDt x) s = .next w ∧
      s.endsNextWritingV t ∧ s.endsNextWritingV u ∧ s.endsNextWritingV w ∧
      ∀ z, (t.reg z = if z = x then nn else s.reg z) ∧
        (u.reg z = if z = x then s.reg y else s.reg z) ∧ (w.reg z = if z = x then s.dt else s.reg z)

/-- R161: ADD Vx, nn wraps and writes no flag. -/
def Obligations.AddImmediate : Prop :=
  ∀ (x : Nibble) (nn : Byte), decode (wordXnn 0x7#4 x nn) = .ok (.addImm x nn) ∧
    ∀ s : State, ∃ t, exec (.addImm x nn) s = .next t ∧ s.endsNextWritingV t ∧
      (t.reg x).toNat = ((s.reg x).toNat + nn.toNat) % 256 ∧ ∀ z, z ≠ x → t.reg z = s.reg z

/-- R163, R164, R165: OR, AND and XOR, bit by bit, VF unchanged unless it is the destination. -/
def Obligations.BitwiseInstructions : Prop :=
  ∀ x y : Nibble,
    decode (wordXyn 0x8#4 x y 0x1#4) = .ok (.orReg x y) ∧
    decode (wordXyn 0x8#4 x y 0x2#4) = .ok (.andReg x y) ∧
    decode (wordXyn 0x8#4 x y 0x3#4) = .ok (.xorReg x y) ∧
    ∀ s : State, ∃ t u w,
      exec (.orReg x y) s = .next t ∧ exec (.andReg x y) s = .next u ∧ exec (.xorReg x y) s = .next w ∧
      s.endsNextWritingV t ∧ s.endsNextWritingV u ∧ s.endsNextWritingV w ∧
      (∀ k, (t.reg x).getLsbD k = ((s.reg x).getLsbD k || (s.reg y).getLsbD k)) ∧
      (∀ k, (u.reg x).getLsbD k = ((s.reg x).getLsbD k && (s.reg y).getLsbD k)) ∧
      (∀ k, (w.reg x).getLsbD k = ((s.reg x).getLsbD k ^^ (s.reg y).getLsbD k)) ∧
      ∀ z, z ≠ x → t.reg z = s.reg z ∧ u.reg z = s.reg z ∧ w.reg z = s.reg z

/-- R166, R171: ADD Vx, Vy; the flag is written last. -/
def Obligations.AddRegisters : Prop :=
  ∀ x y : Nibble, decode (wordXyn 0x8#4 x y 0x4#4) = .ok (.addReg x y) ∧
    ∀ s : State, ∃ t, exec (.addReg x y) s = .next t ∧ s.endsNextWritingV t ∧
      (t.reg 0xF#4).toNat = (if (s.reg x).toNat + (s.reg y).toNat > 255 then 1 else 0) ∧
      (x ≠ 0xF#4 → (t.reg x).toNat = ((s.reg x).toNat + (s.reg y).toNat) % 256) ∧
      ∀ z, z ≠ x → z ≠ 0xF#4 → t.reg z = s.reg z

/-- R167, R169, R171: SUB Vx, Vy and SUBN Vx, Vy; the flag, written last, is 0 exactly when the
subtrahend exceeds the minuend. For SUBN this flag is the spec's own inference (R169: "derived: from
rule R167 and C8R's word "reversed""). -/
def Obligations.SubtractRegisters : Prop :=
  ∀ x y : Nibble, decode (wordXyn 0x8#4 x y 0x5#4) = .ok (.subReg x y) ∧
    decode (wordXyn 0x8#4 x y 0x7#4) = .ok (.subnReg x y) ∧
    ∀ s : State, ∃ t u, exec (.subReg x y) s = .next t ∧ exec (.subnReg x y) s = .next u ∧
      s.endsNextWritingV t ∧ s.endsNextWritingV u ∧
      (t.reg 0xF#4).toNat = (if (s.reg y).toNat > (s.reg x).toNat then 0 else 1) ∧
      (u.reg 0xF#4).toNat = (if (s.reg x).toNat > (s.reg y).toNat then 0 else 1) ∧
      (x ≠ 0xF#4 → (t.reg x).toNat = (256 + (s.reg x).toNat - (s.reg y).toNat) % 256 ∧
        (u.reg x).toNat = (256 + (s.reg y).toNat - (s.reg x).toNat) % 256) ∧
      ∀ z, z ≠ x → z ≠ 0xF#4 → t.reg z = s.reg z ∧ u.reg z = s.reg z

/-- R168, R170, R171: SHR Vx and SHL Vx shift V[x] in place by one bit; `y` is not used; the flag,
written last, is the bit shifted out. -/
def Obligations.ShiftRegister : Prop :=
  ∀ x y : Nibble, decode (wordXyn 0x8#4 x y 0x6#4) = .ok (.shr x y) ∧
    decode (wordXyn 0x8#4 x y 0xE#4) = .ok (.shl x y) ∧
    ∀ s : State, ∃ t u, exec (.shr x y) s = .next t ∧ exec (.shl x y) s = .next u ∧
      s.endsNextWritingV t ∧ s.endsNextWritingV u ∧
      (t.reg 0xF#4).toNat = (s.reg x).toNat % 2 ∧ (u.reg 0xF#4).toNat = (s.reg x).toNat / 128 ∧
      (x ≠ 0xF#4 → (t.reg x).toNat = (s.reg x).toNat / 2 ∧
        (u.reg x).toNat = 2 * (s.reg x).toNat % 256) ∧
      ∀ z, z ≠ x → z ≠ 0xF#4 → t.reg z = s.reg z ∧ u.reg z = s.reg z

/-! ### Control flow -/

/-- R141, R32: RET completes at the popped value when SP is not 0, and faults with STACK_UNDERFLOW when
SP is 0. -/
def Obligations.ReturnPopsThePc : Prop :=
  decode 0x00EE = .ok .ret ∧
  ∀ s : State,
    (s.sp ≠ 0 → exec .ret s = .next
      { s with
        pc := s.stack.getD (s.sp.toNat - 1) 0
        sp := BitVec.ofNat 8 (s.sp.toNat - 1)
        keys := noKeys
        mode := .running
        cycles := s.cycles + 1 }) ∧
    (s.sp = 0 → exec .ret s = .next
      { s with mode := .faulted, faultCause := 5, faultAddr := 0, faultInstr := 0x00EE })

/-- R142: HALT keeps PC, clears K, enters Halted and counts the cycle; `kk` is ignored. -/
def Obligations.HaltStopsTheMachine : Prop :=
  ∀ kk : Byte, (kk ≠ 0xE0 → kk ≠ 0xEE → decode (wordXnn 0x0#4 0x0#4 kk) = .ok (.halt kk)) ∧
    ∀ s : State, exec (.halt kk) s = .next
      { s with keys := noKeys, mode := .halted, cycles := s.cycles + 1 }

/-- R143: JP nnn. -/
def Obligations.JumpGoesToTheTarget : Prop :=
  ∀ nnn : Imm12, decode (wordNnn 0x1#4 nnn) = .ok (.jp nnn) ∧
    ∀ s : State, exec (.jp nnn) s = .next
      { s with pc := nnn.setWidth 16, keys := noKeys, mode := .running, cycles := s.cycles + 1 }

/-- R144, R31: CALL pushes trunc_16(PC + 2) and goes to nnn when the stack is not full, and faults with
STACK_OVERFLOW when it is. -/
def Obligations.CallPushesTheReturnAddress : Prop :=
  ∀ nnn : Imm12, decode (wordNnn 0x2#4 nnn) = .ok (.call nnn) ∧
    ∀ s : State,
      (s.sp.toNat ≠ s.params.stackDepth → exec (.call nnn) s = .next
        { s with
          stack := s.stack.set s.sp.toNat (BitVec.ofNat 16 (s.pc.toNat + 2))
          sp := s.sp + 1
          pc := nnn.setWidth 16
          keys := noKeys
          mode := .running
          cycles := s.cycles + 1 }) ∧
      (s.sp.toNat = s.params.stackDepth → exec (.call nnn) s = .next
        { s with
          mode := .faulted
          faultCause := 4
          faultAddr := BitVec.ofNat 17 s.params.stackDepth
          faultInstr := wordNnn 0x2#4 nnn })

/-- R141, R144, R25: on a machine that meets the invariant, a RET that executes right after a CALL
returns to the instruction after the call, with the stack pointer as before the call. -/
def Obligations.ReturnAfterCallComesBack : Prop :=
  ∀ (s t : State) (nnn : Imm12), s.inv → exec (.call nnn) s = .next t → t.mode = .running →
    ∃ u, exec .ret t = .next u ∧ u.mode = .running ∧ u.pc = BitVec.ofNat 16 (s.pc.toNat + 2) ∧
      u.sp = s.sp ∧ u.v = s.v ∧ u.mem = s.mem

/-- R145: JP V0, nnn goes to V0 + nnn, which never wraps. -/
def Obligations.JumpV0AddsV0 : Prop :=
  ∀ nnn : Imm12, decode (wordNnn 0xB#4 nnn) = .ok (.jpV0 nnn) ∧
    ∀ s : State, ∃ t, exec (.jpV0 nnn) s = .next t ∧
      t = { s with pc := t.pc, keys := noKeys, mode := .running, cycles := s.cycles + 1 } ∧
      t.pc.toNat = (s.reg 0x0#4).toNat + nnn.toNat

/-- R146, R147: SE Vx, nn and SNE Vx, nn. -/
def Obligations.SkipOnImmediate : Prop :=
  ∀ (x : Nibble) (nn : Byte), decode (wordXnn 0x3#4 x nn) = .ok (.seImm x nn) ∧
    decode (wordXnn 0x4#4 x nn) = .ok (.sneImm x nn) ∧
    ∀ s : State,
      exec (.seImm x nn) s = .next
        { s with
          pc := BitVec.ofNat 16 (s.pc.toNat + if s.reg x = nn then 4 else 2)
          keys := noKeys
          mode := .running
          cycles := s.cycles + 1 } ∧
      exec (.sneImm x nn) s = .next
        { s with
          pc := BitVec.ofNat 16 (s.pc.toNat + if s.reg x = nn then 2 else 4)
          keys := noKeys
          mode := .running
          cycles := s.cycles + 1 }

/-- R148, R149: SE Vx, Vy and SNE Vx, Vy. -/
def Obligations.SkipOnRegister : Prop :=
  ∀ x y : Nibble, decode (wordXyn 0x5#4 x y 0x0#4) = .ok (.seReg x y) ∧
    decode (wordXyn 0x9#4 x y 0x0#4) = .ok (.sneReg x y) ∧
    ∀ s : State,
      exec (.seReg x y) s = .next
        { s with
          pc := BitVec.ofNat 16 (s.pc.toNat + if s.reg x = s.reg y then 4 else 2)
          keys := noKeys
          mode := .running
          cycles := s.cycles + 1 } ∧
      exec (.sneReg x y) s = .next
        { s with
          pc := BitVec.ofNat 16 (s.pc.toNat + if s.reg x = s.reg y then 2 else 4)
          keys := noKeys
          mode := .running
          cycles := s.cycles + 1 }

/-! ### Index register and memory -/

/-- R180: LD I, nnn. -/
def Obligations.LoadIndex : Prop :=
  ∀ nnn : Imm12, decode (wordNnn 0xA#4 nnn) = .ok (.ldI nnn) ∧
    ∀ s : State, exec (.ldI nnn) s = .next
      { s with
        i := nnn.setWidth 16
        pc := s.pc + 2
        keys := noKeys
        mode := .running
        cycles := s.cycles + 1 }

/-- R181: ADD I, Vx wraps modulo 2^16 and writes no flag. -/
def Obligations.AddToIndex : Prop :=
  ∀ x : Nibble, decode (wordXnn 0xF#4 x 0x1E#8) = .ok (.addI x) ∧
    ∀ s : State, ∃ t, exec (.addI x) s = .next t ∧
      t = { s with
            i := t.i
            pc := s.pc + 2
            keys := noKeys
            mode := .running
            cycles := s.cycles + 1 } ∧
      t.i.toNat = (s.i.toNat + (s.reg x).toNat) % 65536

/-- R182: LD F, Vx uses all 8 bits of V[x]. -/
def Obligations.LoadGlyphAddress : Prop :=
  ∀ x : Nibble, decode (wordXnn 0xF#4 x 0x29#8) = .ok (.ldF x) ∧
    ∀ s : State, ∃ t, exec (.ldF x) s = .next t ∧
      t = { s with
            i := t.i
            pc := s.pc + 2
            keys := noKeys
            mode := .running
            cycles := s.cycles + 1 } ∧
      t.i.toNat = 0x0050 + 5 * (s.reg x).toNat

/-- R183: LD B, Vx stores the three decimal digits at I, I+1, I+2 when all three exist, and otherwise
faults with OOB_DATA_WRITE and writes no byte. -/
def Obligations.StoreDecimalDigits : Prop :=
  ∀ x : Nibble, decode (wordXnn 0xF#4 x 0x33#8) = .ok (.ldB x) ∧
    ∀ s : State,
      (s.i.toNat + 2 < s.params.memSize → ∃ t, exec (.ldB x) s = .next t ∧
        t = { s with
              mem := t.mem
              pc := s.pc + 2
              keys := noKeys
              mode := .running
              cycles := s.cycles + 1 } ∧
        (t.mem.read s.i.toNat).toNat = (s.reg x).toNat / 100 ∧
        (t.mem.read (s.i.toNat + 1)).toNat = (s.reg x).toNat / 10 % 10 ∧
        (t.mem.read (s.i.toNat + 2)).toNat = (s.reg x).toNat % 10 ∧
        ∀ a, a < s.i.toNat ∨ s.i.toNat + 2 < a → t.mem.read a = s.mem.read a) ∧
      (s.params.memSize ≤ s.i.toNat + 2 → exec (.ldB x) s = .next
        { s with
          mode := .faulted
          faultCause := 3
          faultAddr := BitVec.ofNat 17 (max s.i.toNat s.params.memSize)
          faultInstr := wordXnn 0xF#4 x 0x33#8 })

/-- R184: LD [I], Vx stores V0 to Vx at I upward when the whole block exists, and otherwise faults with
OOB_DATA_WRITE and writes no byte. -/
def Obligations.StoreRegisters : Prop :=
  ∀ x : Nibble, decode (wordXnn 0xF#4 x 0x55#8) = .ok (.storeRegs x) ∧
    ∀ s : State,
      (s.i.toNat + x.toNat < s.params.memSize → ∃ t, exec (.storeRegs x) s = .next t ∧
        t = { s with
              mem := t.mem
              pc := s.pc + 2
              keys := noKeys
              mode := .running
              cycles := s.cycles + 1 } ∧
        (∀ k : Nibble, k.toNat ≤ x.toNat → t.mem.read (s.i.toNat + k.toNat) = s.reg k) ∧
        ∀ a, a < s.i.toNat ∨ s.i.toNat + x.toNat < a → t.mem.read a = s.mem.read a) ∧
      (s.params.memSize ≤ s.i.toNat + x.toNat → exec (.storeRegs x) s = .next
        { s with
          mode := .faulted
          faultCause := 3
          faultAddr := BitVec.ofNat 17 (max s.i.toNat s.params.memSize)
          faultInstr := wordXnn 0xF#4 x 0x55#8 })

/-- R185: LD Vx, [I] loads V0 to Vx from I upward when the whole block exists, and otherwise faults with
OOB_DATA_READ and writes no register. -/
def Obligations.LoadRegisters : Prop :=
  ∀ x : Nibble, decode (wordXnn 0xF#4 x 0x65#8) = .ok (.loadRegs x) ∧
    ∀ s : State,
      (s.i.toNat + x.toNat < s.params.memSize → ∃ t, exec (.loadRegs x) s = .next t ∧
        s.endsNextWritingV t ∧
        ∀ k : Nibble, t.reg k =
          if k.toNat ≤ x.toNat then s.mem.read (s.i.toNat + k.toNat) else s.reg k) ∧
      (s.params.memSize ≤ s.i.toNat + x.toNat → exec (.loadRegs x) s = .next
        { s with
          mode := .faulted
          faultCause := 2
          faultAddr := BitVec.ofNat 17 (max s.i.toNat s.params.memSize)
          faultInstr := wordXnn 0xF#4 x 0x65#8 })

/-- R185, R184: LD [I], Vx followed immediately by LD Vx, [I] leaves every register unchanged. -/
def Obligations.StoreThenLoadRestores : Prop :=
  ∀ (x : Nibble) (s : State), s.i.toNat + x.toNat < s.params.memSize →
    ∃ t u, exec (.storeRegs x) s = .next t ∧ exec (.loadRegs x) t = .next u ∧
      u.v = s.v ∧ u.i = s.i ∧ u.mem = t.mem

/-! ### Display -/

/-- R200: CLS clears every pixel. -/
def Obligations.ClearDisplay : Prop :=
  decode 0x00E0 = .ok .cls ∧
  ∀ s : State, ∃ t, exec .cls s = .next t ∧
    t = { s with
          fb := t.fb
          pc := s.pc + 2
          keys := noKeys
          mode := .running
          cycles := s.cycles + 1 } ∧
    t.fb = List.replicate s.params.dispH (List.replicate s.params.dispW false)

/-- R202, R201, R65: DRW. On a machine whose storages have their sizes and where every sprite byte
exists, each pixel is inverted once for every sprite bit that lands on it; VF becomes 1 exactly when
some sprite bit, at its turn, found its pixel lit; and everything else but the end of the cycle is as
before. A DRW with rows, one of whose sprite bytes is outside Memory, faults with OOB_DATA_READ and
draws nothing. -/
def Obligations.DrawPlotsTheSprite : Prop :=
  ∀ x y n : Nibble, decode (wordXyn 0xD#4 x y n) = .ok (.drw x y n) ∧
    (∀ s : State, n ≠ 0 → s.params.memSize < s.i.toNat + n.toNat →
      exec (.drw x y n) s = .next
        { s with
          mode := .faulted
          faultCause := 2
          faultAddr := BitVec.ofNat 17 (max s.i.toNat s.params.memSize)
          faultInstr := wordXyn 0xD#4 x y n }) ∧
    ∀ s : State, s.shaped → (n = 0 ∨ s.i.toNat + n.toNat ≤ s.params.memSize) →
      ∃ t, exec (.drw x y n) s = .next t ∧
        t = { s with
              fb := t.fb
              v := t.v
              pc := s.pc + 2
              keys := noKeys
              mode := .running
              cycles := s.cycles + 1 } ∧
        (∀ py px, t.fb.pixel py px =
          (s.fb.pixel py px ^^
            decide (((s.spriteBits n).map (s.landsOn x y)).count (py, px) % 2 = 1))) ∧
        (∀ z, z ≠ 0xF#4 → t.reg z = s.reg z) ∧
        (t.reg 0xF#4 = 1 ∨ t.reg 0xF#4 = 0) ∧
        (t.reg 0xF#4 = 1 ↔ ∃ k rc, (s.spriteBits n)[k]? = some rc ∧
          (s.fb.pixel (s.landsOn x y rc).1 (s.landsOn x y rc).2 ^^
            decide ((((s.spriteBits n).take k).map (s.landsOn x y)).count (s.landsOn x y rc) % 2 = 1))
            = true)

/-- R202: on a display at least 8 pixels wide and at least n high, every pixel is touched at most once:
a pixel is inverted iff a sprite bit lands on it, and VF is 1 iff a sprite bit lands on a lit pixel. -/
def Obligations.DrawOnAWideDisplay : Prop :=
  ∀ (x y n : Nibble) (s : State), s.shaped → 8 ≤ s.params.dispW → n.toNat ≤ s.params.dispH →
    (n = 0 ∨ s.i.toNat + n.toNat ≤ s.params.memSize) →
    ∃ t, exec (.drw x y n) s = .next t ∧
      (∀ py px, t.fb.pixel py px = (s.fb.pixel py px ^^
        decide (∃ rc ∈ s.spriteBits n, s.landsOn x y rc = (py, px)))) ∧
      (t.reg 0xF#4 = 1 ↔ ∃ rc ∈ s.spriteBits n,
        s.fb.pixel (s.landsOn x y rc).1 (s.landsOn x y rc).2 = true)

/-- R204: the same sprite drawn twice in succession at the same place restores the framebuffer. `x` and
`y` are not VF, which the first draw overwrites. -/
def Obligations.DrawTwiceRestoresTheDisplay : Prop :=
  ∀ (x y n : Nibble) (s : State), s.shaped → x ≠ 0xF#4 → y ≠ 0xF#4 →
    (n = 0 ∨ s.i.toNat + n.toNat ≤ s.params.memSize) →
    ∃ t u, exec (.drw x y n) s = .next t ∧ exec (.drw x y n) t = .next u ∧ u.fb = s.fb

/-! ### Keyboard, timers, random -/

/-- R211, R212, R210: SKP Vx and SKNP Vx test the key whose number is the low four bits of V[x]. -/
def Obligations.SkipOnKey : Prop :=
  ∀ x : Nibble, decode (wordXnn 0xE#4 x 0x9E#8) = .ok (.skp x) ∧
    decode (wordXnn 0xE#4 x 0xA1#8) = .ok (.sknp x) ∧
    ∀ s : State,
      exec (.skp x) s = .next
        { s with
          pc := BitVec.ofNat 16 (s.pc.toNat +
            if s.key (BitVec.ofNat 4 ((s.reg x).toNat % 16)) = true then 4 else 2)
          keys := noKeys
          mode := .running
          cycles := s.cycles + 1 } ∧
      exec (.sknp x) s = .next
        { s with
          pc := BitVec.ofNat 16 (s.pc.toNat +
            if s.key (BitVec.ofNat 4 ((s.reg x).toNat % 16)) = true then 2 else 4)
          keys := noKeys
          mode := .running
          cycles := s.cycles + 1 }

/-- R213: LD Vx, K waits while no key is pressed, and otherwise takes the smallest pressed key. -/
def Obligations.WaitForKey : Prop :=
  ∀ x : Nibble, decode (wordXnn 0xF#4 x 0x0A#8) = .ok (.ldVxK x) ∧
    ∀ s : State,
      ((∀ k, s.key k = false) → exec (.ldVxK x) s = .next
        { s with mode := .waitingForKey, cycles := s.cycles + 1 }) ∧
      ∀ k : Nibble, s.key k = true → (∀ j : Nibble, j.toNat < k.toNat → s.key j = false) →
        ∃ t, exec (.ldVxK x) s = .next t ∧ s.endsNextWritingV t ∧ (t.reg x).toNat = k.toNat ∧
          ∀ z, z ≠ x → t.reg z = s.reg z

/-- R215, R216: LD DT, Vx and LD ST, Vx. -/
def Obligations.WriteTimers : Prop :=
  ∀ x : Nibble, decode (wordXnn 0xF#4 x 0x15#8) = .ok (.ldDtVx x) ∧
    decode (wordXnn 0xF#4 x 0x18#8) = .ok (.ldStVx x) ∧
    ∀ s : State,
      exec (.ldDtVx x) s = .next
        { s with
          dt := s.reg x
          pc := s.pc + 2
          keys := noKeys
          mode := .running
          cycles := s.cycles + 1 } ∧
      exec (.ldStVx x) s = .next
        { s with
          st := s.reg x
          pc := s.pc + 2
          keys := noKeys
          mode := .running
          cycles := s.cycles + 1 }

/-- R217, R222: RND Vx, nn assigns the cycle's random byte ANDed with nn. The byte is the free value
`Config.rndInput` of the model (notes/assumptions/2.md), so this holds for every byte; the count of
draws, the model's own field, moves on by one. -/
def Obligations.RandomIsMaskedAndAssigned : Prop :=
  ∀ (x : Nibble) (nn : Byte), decode (wordXnn 0xC#4 x nn) = .ok (.rnd x nn) ∧
    ∀ s : State, ∃ t, exec (.rnd x nn) s = .next t ∧
      t = { s with
            v := t.v
            pc := s.pc + 2
            keys := noKeys
            mode := .running
            cycles := s.cycles + 1
            rndDraws := s.rndDraws + 1 } ∧
      (∀ k, (t.reg x).getLsbD k = ((Config.rndInput s.rndDraws).getLsbD k && nn.getLsbD k)) ∧
      ∀ z, z ≠ x → t.reg z = s.reg z

/-! ### The host's operations -/

/-- R250: TickTimers decrements each timer that is not 0, in every MODE, and changes nothing else. -/
def Obligations.TickTimersCountsDown : Prop :=
  ∀ s : State, ∃ t, applyOp s .tickTimers = .next t ∧ t = { s with dt := t.dt, st := t.st } ∧
    t.dt.toNat = s.dt.toNat - 1 ∧ t.st.toNat = s.st.toNat - 1

/-- R251: a timer loaded with v reaches 0 after exactly v ticks and not before. -/
def Obligations.TimerReachesZeroAfterItsValue : Prop :=
  ∀ (s : State) (k : Nat),
    ((State.tickTimers^[k] s).dt = 0 ↔ s.dt.toNat ≤ k) ∧
    ((State.tickTimers^[k] s).st = 0 ↔ s.st.toNat ≤ k)

/-- R252: WriteKey writes one flag and changes nothing else. -/
def Obligations.WriteKeyWritesOneFlag : Prop :=
  ∀ (s : State) (k : Nibble) (b : Bool), ∃ t, applyOp s (.writeKey k b) = .next t ∧
    t = { s with keys := t.keys } ∧ ∀ j, t.key j = if j = k then b else s.key j

/-- R274, R275: LoadProgram copies the bytes to 0x200 upward when they fit, and writes nothing and
reports ok = 0 when they do not. -/
def Obligations.LoadProgramCopiesTheBytes : Prop :=
  ∀ (s : State) (bytes : List Byte),
    (0x200 + bytes.length ≤ s.params.memSize → ∃ t, s.loadProgram bytes = (t, true) ∧
      t = { s with mem := t.mem } ∧
      (∀ j (hj : j < bytes.length), t.mem.read (0x200 + j) = bytes[j]) ∧
      ∀ a, a < 0x200 ∨ 0x200 + bytes.length ≤ a → t.mem.read a = s.mem.read a) ∧
    (s.params.memSize < 0x200 + bytes.length → s.loadProgram bytes = (s, false))

/-- R272, R273: Reset gives every element its value of R40, installs the font table and leaves every
other byte of Memory and the parameters. The count of random draws, the model's own field, is left
open here (notes/assumptions/2.md). -/
def Obligations.ResetKeepsTheProgram : Prop :=
  ∀ s : State, ∃ t, applyOp s .reset = .next t ∧
    t = { s with
          v := t.v, i := 0, pc := 0x0200, sp := 0, dt := 0, st := 0
          stack := List.replicate s.params.stackDepth 0
          fb := List.replicate s.params.dispH (List.replicate s.params.dispW false)
          keys := t.keys, mem := t.mem, mode := .running, faultCause := 0, faultAddr := 0
          faultInstr := 0, cycles := 0, decodeFails := 0, rndDraws := t.rndDraws } ∧
    (∀ x, t.reg x = 0) ∧ (∀ k, t.key k = false) ∧
    (∀ j, j < 80 → t.mem.read (0x050 + j) = font.getD j 0) ∧
    ∀ a, a < 0x050 ∨ 0x0A0 ≤ a → t.mem.read a = s.mem.read a

/-! ### Who writes what -/

/-- R24, R25, R26, R27, R30, R34, R70: over all cycles, I changes only by LD I, ADD I and LD F; SP only
by CALL and RET; DT only by LD DT, Vx; ST only by LD ST, Vx; a Stack entry only by CALL; the
framebuffer only by DRW and CLS; Memory only by LD B, Vx and LD [I], Vx. -/
def Obligations.WhoWritesTheSpecialRegistersAndStorages : Prop :=
  ∀ s t : State, step s = .next t →
    (t.i ≠ s.i → (∃ nnn, decode s.fetchWord = .ok (.ldI nnn)) ∨
      (∃ x, decode s.fetchWord = .ok (.addI x)) ∨ ∃ x, decode s.fetchWord = .ok (.ldF x)) ∧
    (t.sp ≠ s.sp → decode s.fetchWord = .ok .ret ∨ ∃ nnn, decode s.fetchWord = .ok (.call nnn)) ∧
    (t.dt ≠ s.dt → ∃ x, decode s.fetchWord = .ok (.ldDtVx x)) ∧
    (t.st ≠ s.st → ∃ x, decode s.fetchWord = .ok (.ldStVx x)) ∧
    (t.stack ≠ s.stack → ∃ nnn, decode s.fetchWord = .ok (.call nnn)) ∧
    (t.fb ≠ s.fb → decode s.fetchWord = .ok .cls ∨ ∃ x y n, decode s.fetchWord = .ok (.drw x y n)) ∧
    (t.mem ≠ s.mem →
      (∃ x, decode s.fetchWord = .ok (.ldB x)) ∨ ∃ x, decode s.fetchWord = .ok (.storeRegs x))

/-- R38, R21: over all cycles, VF changes only by the six instructions that write it as a flag, or by
an instruction whose destination field is 15. -/
def Obligations.WhoWritesVF : Prop :=
  ∀ s t : State, step s = .next t → t.reg 0xF#4 ≠ s.reg 0xF#4 →
    ∃ i, decode s.fetchWord = .ok i ∧
      ((∃ x y, i = .addReg x y ∨ i = .subReg x y ∨ i = .shr x y ∨ i = .subnReg x y ∨ i = .shl x y) ∨
       (∃ x y n, i = .drw x y n) ∨
       (∃ nn, i = .ldImm 0xF#4 nn ∨ i = .addImm 0xF#4 nn ∨ i = .rnd 0xF#4 nn) ∨
       (∃ y, i = .ldReg 0xF#4 y ∨ i = .orReg 0xF#4 y ∨ i = .andReg 0xF#4 y ∨ i = .xorReg 0xF#4 y) ∨
       i = .ldVxDt 0xF#4 ∨ i = .ldVxK 0xF#4 ∨ i = .loadRegs 0xF#4)

/-- R20, R140: over all cycles, a general register other than VF changes only where the instruction's
field `x` names it as the destination, or where it lies in the block LD Vx, [I] loads. -/
def Obligations.WhoWritesAGeneralRegister : Prop :=
  ∀ (s t : State) (z : Nibble), step s = .next t → z ≠ 0xF#4 → t.reg z ≠ s.reg z →
    ∃ i, decode s.fetchWord = .ok i ∧
      ((∃ nn, i = .ldImm z nn ∨ i = .addImm z nn ∨ i = .rnd z nn) ∨
       (∃ y, i = .ldReg z y ∨ i = .orReg z y ∨ i = .andReg z y ∨ i = .xorReg z y ∨ i = .addReg z y ∨
         i = .subReg z y ∨ i = .shr z y ∨ i = .subnReg z y ∨ i = .shl z y) ∨
       i = .ldVxDt z ∨ i = .ldVxK z ∨ ∃ x, i = .loadRegs x ∧ z.toNat ≤ x.toNat)

/-- R74, R67: a block of registers LD [I], Vx stores over the bytes at the next PC is what the next
cycle fetches, high byte first, whatever stood there before. -/
def Obligations.StoredBytesAreFetched : Prop :=
  ∀ (s : State) (x k : Nibble), s.i.toNat + x.toNat < s.params.memSize → k.toNat < x.toNat →
    (s.pc + 2).toNat = s.i.toNat + k.toNat →
    ∃ t, exec (.storeRegs x) s = .next t ∧ t.fetchWord = wordOfBytes (s.reg k) (s.reg (k + 1))
end

