-- ==== Sys2Proof/Laws/Decode.lean ====
section
/-! SUPPORT. The fields of a word of each format, and the byte order of a word. -/
namespace Sys2Proof

variable (op x y n : Nibble) (nn : Byte) (nnn : Imm12) (w : Word)

@[simp] theorem fieldOp_wordNnn : fieldOp (wordNnn op nnn) = op := by
  unfold fieldOp wordNnn; rw [BitVec.extractLsb'_append_eq_of_le (by decide)]; simp

@[simp] theorem fieldNnn_wordNnn : fieldNnn (wordNnn op nnn) = nnn := by
  unfold fieldNnn wordNnn; rw [BitVec.extractLsb'_append_eq_of_add_le (by decide)]; simp

@[simp] theorem fieldOp_wordXnn : fieldOp (wordXnn op x nn) = op := by
  unfold fieldOp wordXnn
  rw [BitVec.extractLsb'_append_eq_of_le (by decide), BitVec.extractLsb'_append_eq_of_le (by decide)]
  simp

@[simp] theorem fieldX_wordXnn : fieldX (wordXnn op x nn) = x := by
  unfold fieldX wordXnn
  rw [BitVec.extractLsb'_append_eq_of_le (by decide), BitVec.extractLsb'_append_eq_of_add_le (by decide)]
  simp

@[simp] theorem fieldNn_wordXnn : fieldNn (wordXnn op x nn) = nn := by
  unfold fieldNn wordXnn; rw [BitVec.extractLsb'_append_eq_of_add_le (by decide)]; simp

@[simp] theorem fieldOp_wordXyn : fieldOp (wordXyn op x y n) = op := by
  unfold fieldOp wordXyn
  rw [BitVec.extractLsb'_append_eq_of_le (by decide), BitVec.extractLsb'_append_eq_of_le (by decide),
    BitVec.extractLsb'_append_eq_of_le (by decide)]
  simp

@[simp] theorem fieldX_wordXyn : fieldX (wordXyn op x y n) = x := by
  unfold fieldX wordXyn
  rw [BitVec.extractLsb'_append_eq_of_le (by decide), BitVec.extractLsb'_append_eq_of_le (by decide),
    BitVec.extractLsb'_append_eq_of_add_le (by decide)]
  simp

@[simp] theorem fieldY_wordXyn : fieldY (wordXyn op x y n) = y := by
  unfold fieldY wordXyn
  rw [BitVec.extractLsb'_append_eq_of_le (by decide), BitVec.extractLsb'_append_eq_of_add_le (by decide)]
  simp

@[simp] theorem fieldN_wordXyn : fieldN (wordXyn op x y n) = n := by
  unfold fieldN wordXyn; rw [BitVec.extractLsb'_append_eq_of_add_le (by decide)]; simp

/-! A word is its fields put together, in each format. -/

theorem wordNnn_fields : wordNnn (fieldOp w) (fieldNnn w) = w := by
  refine BitVec.eq_of_getLsbD_eq fun k hk => ?_
  simp only [wordNnn, fieldOp, fieldNnn, BitVec.getLsbD_append, BitVec.getLsbD_extractLsb']
  interval_cases k <;> rfl

theorem wordXnn_fields : wordXnn (fieldOp w) (fieldX w) (fieldNn w) = w := by
  refine BitVec.eq_of_getLsbD_eq fun k hk => ?_
  simp only [wordXnn, fieldOp, fieldX, fieldNn, BitVec.getLsbD_append, BitVec.getLsbD_extractLsb']
  interval_cases k <;> rfl

theorem wordXyn_fields : wordXyn (fieldOp w) (fieldX w) (fieldY w) (fieldN w) = w := by
  refine BitVec.eq_of_getLsbD_eq fun k hk => ?_
  simp only [wordXyn, fieldOp, fieldX, fieldY, fieldN, BitVec.getLsbD_append, BitVec.getLsbD_extractLsb']
  interval_cases k <;> rfl

/-! A word from its fields, some of them known. -/

variable {w}

theorem eq_wordNnn {op : Nibble} (h : fieldOp w = op) : wordNnn op (fieldNnn w) = w := by
  subst h; exact wordNnn_fields w

theorem eq_wordXnn {op : Nibble} (h : fieldOp w = op) : wordXnn op (fieldX w) (fieldNn w) = w := by
  subst h; exact wordXnn_fields w

theorem eq_wordXkk {op : Nibble} {kk : Byte} (h : fieldOp w = op) (hk : fieldNn w = kk) :
    wordXnn op (fieldX w) kk = w := by
  subst h hk; exact wordXnn_fields w

theorem eq_wordSys {op x : Nibble} {kk : Byte} (h : fieldOp w = op) (hx : fieldX w = x)
    (hk : fieldNn w = kk) : wordXnn op x kk = w := by
  subst h hx hk; exact wordXnn_fields w

theorem eq_wordXyn {op : Nibble} (h : fieldOp w = op) :
    wordXyn op (fieldX w) (fieldY w) (fieldN w) = w := by
  subst h; exact wordXyn_fields w

theorem eq_wordXy {op n : Nibble} (h : fieldOp w = op) (hn : fieldN w = n) :
    wordXyn op (fieldX w) (fieldY w) n = w := by
  subst h hn; exact wordXyn_fields w

variable (w)

/-- A word stored high byte first is the word read back (R67). -/
@[simp] theorem wordOfBytes_bytes : wordOfBytes (highByte w) (lowByte w) = w := by
  refine BitVec.eq_of_getLsbD_eq fun k hk => ?_
  simp only [wordOfBytes, highByte, lowByte, BitVec.getLsbD_append, BitVec.getLsbD_extractLsb']
  interval_cases k <;> rfl

end Sys2Proof
end

