-- ==== Sys2Proof/Laws/State.lean ====
section
/-! SUPPORT. What each named update does to each field of the state, one lemma per field, all by rfl;
and what it does to the register and key reads. -/
namespace Sys2Proof.Machine

variable (s : State)

/-! `State.setReg` -/

@[simp] theorem State.setReg_params (x : Nibble) (b : Byte) : (s.setReg x b).params = s.params := rfl
@[simp] theorem State.setReg_v (x : Nibble) (b : Byte) : (s.setReg x b).v = s.v.set x.toNat b x.isLt := rfl
@[simp] theorem State.setReg_i (x : Nibble) (b : Byte) : (s.setReg x b).i = s.i := rfl
@[simp] theorem State.setReg_pc (x : Nibble) (b : Byte) : (s.setReg x b).pc = s.pc := rfl
@[simp] theorem State.setReg_sp (x : Nibble) (b : Byte) : (s.setReg x b).sp = s.sp := rfl
@[simp] theorem State.setReg_dt (x : Nibble) (b : Byte) : (s.setReg x b).dt = s.dt := rfl
@[simp] theorem State.setReg_st (x : Nibble) (b : Byte) : (s.setReg x b).st = s.st := rfl
@[simp] theorem State.setReg_stack (x : Nibble) (b : Byte) : (s.setReg x b).stack = s.stack := rfl
@[simp] theorem State.setReg_keys (x : Nibble) (b : Byte) : (s.setReg x b).keys = s.keys := rfl
@[simp] theorem State.setReg_fb (x : Nibble) (b : Byte) : (s.setReg x b).fb = s.fb := rfl
@[simp] theorem State.setReg_mem (x : Nibble) (b : Byte) : (s.setReg x b).mem = s.mem := rfl
@[simp] theorem State.setReg_mode (x : Nibble) (b : Byte) : (s.setReg x b).mode = s.mode := rfl
@[simp] theorem State.setReg_faultCause (x : Nibble) (b : Byte) : (s.setReg x b).faultCause = s.faultCause := rfl
@[simp] theorem State.setReg_faultAddr (x : Nibble) (b : Byte) : (s.setReg x b).faultAddr = s.faultAddr := rfl
@[simp] theorem State.setReg_faultInstr (x : Nibble) (b : Byte) : (s.setReg x b).faultInstr = s.faultInstr := rfl
@[simp] theorem State.setReg_cycles (x : Nibble) (b : Byte) : (s.setReg x b).cycles = s.cycles := rfl
@[simp] theorem State.setReg_decodeFails (x : Nibble) (b : Byte) : (s.setReg x b).decodeFails = s.decodeFails := rfl
@[simp] theorem State.setReg_rndDraws (x : Nibble) (b : Byte) : (s.setReg x b).rndDraws = s.rndDraws := rfl

/-! `State.setRegFlag` -/

@[simp] theorem State.setRegFlag_params (x : Nibble) (b f : Byte) : (s.setRegFlag x b f).params = s.params := rfl
@[simp] theorem State.setRegFlag_v (x : Nibble) (b f : Byte) : (s.setRegFlag x b f).v = (s.v.set x.toNat b x.isLt).set 15 f := rfl
@[simp] theorem State.setRegFlag_i (x : Nibble) (b f : Byte) : (s.setRegFlag x b f).i = s.i := rfl
@[simp] theorem State.setRegFlag_pc (x : Nibble) (b f : Byte) : (s.setRegFlag x b f).pc = s.pc := rfl
@[simp] theorem State.setRegFlag_sp (x : Nibble) (b f : Byte) : (s.setRegFlag x b f).sp = s.sp := rfl
@[simp] theorem State.setRegFlag_dt (x : Nibble) (b f : Byte) : (s.setRegFlag x b f).dt = s.dt := rfl
@[simp] theorem State.setRegFlag_st (x : Nibble) (b f : Byte) : (s.setRegFlag x b f).st = s.st := rfl
@[simp] theorem State.setRegFlag_stack (x : Nibble) (b f : Byte) : (s.setRegFlag x b f).stack = s.stack := rfl
@[simp] theorem State.setRegFlag_keys (x : Nibble) (b f : Byte) : (s.setRegFlag x b f).keys = s.keys := rfl
@[simp] theorem State.setRegFlag_fb (x : Nibble) (b f : Byte) : (s.setRegFlag x b f).fb = s.fb := rfl
@[simp] theorem State.setRegFlag_mem (x : Nibble) (b f : Byte) : (s.setRegFlag x b f).mem = s.mem := rfl
@[simp] theorem State.setRegFlag_mode (x : Nibble) (b f : Byte) : (s.setRegFlag x b f).mode = s.mode := rfl
@[simp] theorem State.setRegFlag_faultCause (x : Nibble) (b f : Byte) : (s.setRegFlag x b f).faultCause = s.faultCause := rfl
@[simp] theorem State.setRegFlag_faultAddr (x : Nibble) (b f : Byte) : (s.setRegFlag x b f).faultAddr = s.faultAddr := rfl
@[simp] theorem State.setRegFlag_faultInstr (x : Nibble) (b f : Byte) : (s.setRegFlag x b f).faultInstr = s.faultInstr := rfl
@[simp] theorem State.setRegFlag_cycles (x : Nibble) (b f : Byte) : (s.setRegFlag x b f).cycles = s.cycles := rfl
@[simp] theorem State.setRegFlag_decodeFails (x : Nibble) (b f : Byte) : (s.setRegFlag x b f).decodeFails = s.decodeFails := rfl
@[simp] theorem State.setRegFlag_rndDraws (x : Nibble) (b f : Byte) : (s.setRegFlag x b f).rndDraws = s.rndDraws := rfl

/-! `State.setI` -/

@[simp] theorem State.setI_params (w : Word) : (s.setI w).params = s.params := rfl
@[simp] theorem State.setI_v (w : Word) : (s.setI w).v = s.v := rfl
@[simp] theorem State.setI_i (w : Word) : (s.setI w).i = w := rfl
@[simp] theorem State.setI_pc (w : Word) : (s.setI w).pc = s.pc := rfl
@[simp] theorem State.setI_sp (w : Word) : (s.setI w).sp = s.sp := rfl
@[simp] theorem State.setI_dt (w : Word) : (s.setI w).dt = s.dt := rfl
@[simp] theorem State.setI_st (w : Word) : (s.setI w).st = s.st := rfl
@[simp] theorem State.setI_stack (w : Word) : (s.setI w).stack = s.stack := rfl
@[simp] theorem State.setI_keys (w : Word) : (s.setI w).keys = s.keys := rfl
@[simp] theorem State.setI_fb (w : Word) : (s.setI w).fb = s.fb := rfl
@[simp] theorem State.setI_mem (w : Word) : (s.setI w).mem = s.mem := rfl
@[simp] theorem State.setI_mode (w : Word) : (s.setI w).mode = s.mode := rfl
@[simp] theorem State.setI_faultCause (w : Word) : (s.setI w).faultCause = s.faultCause := rfl
@[simp] theorem State.setI_faultAddr (w : Word) : (s.setI w).faultAddr = s.faultAddr := rfl
@[simp] theorem State.setI_faultInstr (w : Word) : (s.setI w).faultInstr = s.faultInstr := rfl
@[simp] theorem State.setI_cycles (w : Word) : (s.setI w).cycles = s.cycles := rfl
@[simp] theorem State.setI_decodeFails (w : Word) : (s.setI w).decodeFails = s.decodeFails := rfl
@[simp] theorem State.setI_rndDraws (w : Word) : (s.setI w).rndDraws = s.rndDraws := rfl

/-! `State.setDt` -/

@[simp] theorem State.setDt_params (b : Byte) : (s.setDt b).params = s.params := rfl
@[simp] theorem State.setDt_v (b : Byte) : (s.setDt b).v = s.v := rfl
@[simp] theorem State.setDt_i (b : Byte) : (s.setDt b).i = s.i := rfl
@[simp] theorem State.setDt_pc (b : Byte) : (s.setDt b).pc = s.pc := rfl
@[simp] theorem State.setDt_sp (b : Byte) : (s.setDt b).sp = s.sp := rfl
@[simp] theorem State.setDt_dt (b : Byte) : (s.setDt b).dt = b := rfl
@[simp] theorem State.setDt_st (b : Byte) : (s.setDt b).st = s.st := rfl
@[simp] theorem State.setDt_stack (b : Byte) : (s.setDt b).stack = s.stack := rfl
@[simp] theorem State.setDt_keys (b : Byte) : (s.setDt b).keys = s.keys := rfl
@[simp] theorem State.setDt_fb (b : Byte) : (s.setDt b).fb = s.fb := rfl
@[simp] theorem State.setDt_mem (b : Byte) : (s.setDt b).mem = s.mem := rfl
@[simp] theorem State.setDt_mode (b : Byte) : (s.setDt b).mode = s.mode := rfl
@[simp] theorem State.setDt_faultCause (b : Byte) : (s.setDt b).faultCause = s.faultCause := rfl
@[simp] theorem State.setDt_faultAddr (b : Byte) : (s.setDt b).faultAddr = s.faultAddr := rfl
@[simp] theorem State.setDt_faultInstr (b : Byte) : (s.setDt b).faultInstr = s.faultInstr := rfl
@[simp] theorem State.setDt_cycles (b : Byte) : (s.setDt b).cycles = s.cycles := rfl
@[simp] theorem State.setDt_decodeFails (b : Byte) : (s.setDt b).decodeFails = s.decodeFails := rfl
@[simp] theorem State.setDt_rndDraws (b : Byte) : (s.setDt b).rndDraws = s.rndDraws := rfl

/-! `State.setSt` -/

@[simp] theorem State.setSt_params (b : Byte) : (s.setSt b).params = s.params := rfl
@[simp] theorem State.setSt_v (b : Byte) : (s.setSt b).v = s.v := rfl
@[simp] theorem State.setSt_i (b : Byte) : (s.setSt b).i = s.i := rfl
@[simp] theorem State.setSt_pc (b : Byte) : (s.setSt b).pc = s.pc := rfl
@[simp] theorem State.setSt_sp (b : Byte) : (s.setSt b).sp = s.sp := rfl
@[simp] theorem State.setSt_dt (b : Byte) : (s.setSt b).dt = s.dt := rfl
@[simp] theorem State.setSt_st (b : Byte) : (s.setSt b).st = b := rfl
@[simp] theorem State.setSt_stack (b : Byte) : (s.setSt b).stack = s.stack := rfl
@[simp] theorem State.setSt_keys (b : Byte) : (s.setSt b).keys = s.keys := rfl
@[simp] theorem State.setSt_fb (b : Byte) : (s.setSt b).fb = s.fb := rfl
@[simp] theorem State.setSt_mem (b : Byte) : (s.setSt b).mem = s.mem := rfl
@[simp] theorem State.setSt_mode (b : Byte) : (s.setSt b).mode = s.mode := rfl
@[simp] theorem State.setSt_faultCause (b : Byte) : (s.setSt b).faultCause = s.faultCause := rfl
@[simp] theorem State.setSt_faultAddr (b : Byte) : (s.setSt b).faultAddr = s.faultAddr := rfl
@[simp] theorem State.setSt_faultInstr (b : Byte) : (s.setSt b).faultInstr = s.faultInstr := rfl
@[simp] theorem State.setSt_cycles (b : Byte) : (s.setSt b).cycles = s.cycles := rfl
@[simp] theorem State.setSt_decodeFails (b : Byte) : (s.setSt b).decodeFails = s.decodeFails := rfl
@[simp] theorem State.setSt_rndDraws (b : Byte) : (s.setSt b).rndDraws = s.rndDraws := rfl

/-! `State.store` -/

@[simp] theorem State.store_params (a : Nat) (bs : List Byte) : (s.store a bs).params = s.params := rfl
@[simp] theorem State.store_v (a : Nat) (bs : List Byte) : (s.store a bs).v = s.v := rfl
@[simp] theorem State.store_i (a : Nat) (bs : List Byte) : (s.store a bs).i = s.i := rfl
@[simp] theorem State.store_pc (a : Nat) (bs : List Byte) : (s.store a bs).pc = s.pc := rfl
@[simp] theorem State.store_sp (a : Nat) (bs : List Byte) : (s.store a bs).sp = s.sp := rfl
@[simp] theorem State.store_dt (a : Nat) (bs : List Byte) : (s.store a bs).dt = s.dt := rfl
@[simp] theorem State.store_st (a : Nat) (bs : List Byte) : (s.store a bs).st = s.st := rfl
@[simp] theorem State.store_stack (a : Nat) (bs : List Byte) : (s.store a bs).stack = s.stack := rfl
@[simp] theorem State.store_keys (a : Nat) (bs : List Byte) : (s.store a bs).keys = s.keys := rfl
@[simp] theorem State.store_fb (a : Nat) (bs : List Byte) : (s.store a bs).fb = s.fb := rfl
@[simp] theorem State.store_mem (a : Nat) (bs : List Byte) : (s.store a bs).mem = s.mem.writeBytes a bs := rfl
@[simp] theorem State.store_mode (a : Nat) (bs : List Byte) : (s.store a bs).mode = s.mode := rfl
@[simp] theorem State.store_faultCause (a : Nat) (bs : List Byte) : (s.store a bs).faultCause = s.faultCause := rfl
@[simp] theorem State.store_faultAddr (a : Nat) (bs : List Byte) : (s.store a bs).faultAddr = s.faultAddr := rfl
@[simp] theorem State.store_faultInstr (a : Nat) (bs : List Byte) : (s.store a bs).faultInstr = s.faultInstr := rfl
@[simp] theorem State.store_cycles (a : Nat) (bs : List Byte) : (s.store a bs).cycles = s.cycles := rfl
@[simp] theorem State.store_decodeFails (a : Nat) (bs : List Byte) : (s.store a bs).decodeFails = s.decodeFails := rfl
@[simp] theorem State.store_rndDraws (a : Nat) (bs : List Byte) : (s.store a bs).rndDraws = s.rndDraws := rfl

/-! `State.push` -/

@[simp] theorem State.push_params (w : Word) : (s.push w).params = s.params := rfl
@[simp] theorem State.push_v (w : Word) : (s.push w).v = s.v := rfl
@[simp] theorem State.push_i (w : Word) : (s.push w).i = s.i := rfl
@[simp] theorem State.push_pc (w : Word) : (s.push w).pc = s.pc := rfl
@[simp] theorem State.push_sp (w : Word) : (s.push w).sp = s.sp + 1 := rfl
@[simp] theorem State.push_dt (w : Word) : (s.push w).dt = s.dt := rfl
@[simp] theorem State.push_st (w : Word) : (s.push w).st = s.st := rfl
@[simp] theorem State.push_stack (w : Word) : (s.push w).stack = s.stack.set s.sp.toNat w := rfl
@[simp] theorem State.push_keys (w : Word) : (s.push w).keys = s.keys := rfl
@[simp] theorem State.push_fb (w : Word) : (s.push w).fb = s.fb := rfl
@[simp] theorem State.push_mem (w : Word) : (s.push w).mem = s.mem := rfl
@[simp] theorem State.push_mode (w : Word) : (s.push w).mode = s.mode := rfl
@[simp] theorem State.push_faultCause (w : Word) : (s.push w).faultCause = s.faultCause := rfl
@[simp] theorem State.push_faultAddr (w : Word) : (s.push w).faultAddr = s.faultAddr := rfl
@[simp] theorem State.push_faultInstr (w : Word) : (s.push w).faultInstr = s.faultInstr := rfl
@[simp] theorem State.push_cycles (w : Word) : (s.push w).cycles = s.cycles := rfl
@[simp] theorem State.push_decodeFails (w : Word) : (s.push w).decodeFails = s.decodeFails := rfl
@[simp] theorem State.push_rndDraws (w : Word) : (s.push w).rndDraws = s.rndDraws := rfl

/-! `State.pop` -/

@[simp] theorem State.pop_params : (s.pop).params = s.params := rfl
@[simp] theorem State.pop_v : (s.pop).v = s.v := rfl
@[simp] theorem State.pop_i : (s.pop).i = s.i := rfl
@[simp] theorem State.pop_pc : (s.pop).pc = s.pc := rfl
@[simp] theorem State.pop_sp : (s.pop).sp = s.sp - 1 := rfl
@[simp] theorem State.pop_dt : (s.pop).dt = s.dt := rfl
@[simp] theorem State.pop_st : (s.pop).st = s.st := rfl
@[simp] theorem State.pop_stack : (s.pop).stack = s.stack := rfl
@[simp] theorem State.pop_keys : (s.pop).keys = s.keys := rfl
@[simp] theorem State.pop_fb : (s.pop).fb = s.fb := rfl
@[simp] theorem State.pop_mem : (s.pop).mem = s.mem := rfl
@[simp] theorem State.pop_mode : (s.pop).mode = s.mode := rfl
@[simp] theorem State.pop_faultCause : (s.pop).faultCause = s.faultCause := rfl
@[simp] theorem State.pop_faultAddr : (s.pop).faultAddr = s.faultAddr := rfl
@[simp] theorem State.pop_faultInstr : (s.pop).faultInstr = s.faultInstr := rfl
@[simp] theorem State.pop_cycles : (s.pop).cycles = s.cycles := rfl
@[simp] theorem State.pop_decodeFails : (s.pop).decodeFails = s.decodeFails := rfl
@[simp] theorem State.pop_rndDraws : (s.pop).rndDraws = s.rndDraws := rfl

/-! `State.setFb` -/

@[simp] theorem State.setFb_params (fb : Framebuffer) : (s.setFb fb).params = s.params := rfl
@[simp] theorem State.setFb_v (fb : Framebuffer) : (s.setFb fb).v = s.v := rfl
@[simp] theorem State.setFb_i (fb : Framebuffer) : (s.setFb fb).i = s.i := rfl
@[simp] theorem State.setFb_pc (fb : Framebuffer) : (s.setFb fb).pc = s.pc := rfl
@[simp] theorem State.setFb_sp (fb : Framebuffer) : (s.setFb fb).sp = s.sp := rfl
@[simp] theorem State.setFb_dt (fb : Framebuffer) : (s.setFb fb).dt = s.dt := rfl
@[simp] theorem State.setFb_st (fb : Framebuffer) : (s.setFb fb).st = s.st := rfl
@[simp] theorem State.setFb_stack (fb : Framebuffer) : (s.setFb fb).stack = s.stack := rfl
@[simp] theorem State.setFb_keys (fb : Framebuffer) : (s.setFb fb).keys = s.keys := rfl
@[simp] theorem State.setFb_fb (fb : Framebuffer) : (s.setFb fb).fb = fb := rfl
@[simp] theorem State.setFb_mem (fb : Framebuffer) : (s.setFb fb).mem = s.mem := rfl
@[simp] theorem State.setFb_mode (fb : Framebuffer) : (s.setFb fb).mode = s.mode := rfl
@[simp] theorem State.setFb_faultCause (fb : Framebuffer) : (s.setFb fb).faultCause = s.faultCause := rfl
@[simp] theorem State.setFb_faultAddr (fb : Framebuffer) : (s.setFb fb).faultAddr = s.faultAddr := rfl
@[simp] theorem State.setFb_faultInstr (fb : Framebuffer) : (s.setFb fb).faultInstr = s.faultInstr := rfl
@[simp] theorem State.setFb_cycles (fb : Framebuffer) : (s.setFb fb).cycles = s.cycles := rfl
@[simp] theorem State.setFb_decodeFails (fb : Framebuffer) : (s.setFb fb).decodeFails = s.decodeFails := rfl
@[simp] theorem State.setFb_rndDraws (fb : Framebuffer) : (s.setFb fb).rndDraws = s.rndDraws := rfl

/-! `State.drawn` -/

@[simp] theorem State.drawn_params : (s.drawn).params = s.params := rfl
@[simp] theorem State.drawn_v : (s.drawn).v = s.v := rfl
@[simp] theorem State.drawn_i : (s.drawn).i = s.i := rfl
@[simp] theorem State.drawn_pc : (s.drawn).pc = s.pc := rfl
@[simp] theorem State.drawn_sp : (s.drawn).sp = s.sp := rfl
@[simp] theorem State.drawn_dt : (s.drawn).dt = s.dt := rfl
@[simp] theorem State.drawn_st : (s.drawn).st = s.st := rfl
@[simp] theorem State.drawn_stack : (s.drawn).stack = s.stack := rfl
@[simp] theorem State.drawn_keys : (s.drawn).keys = s.keys := rfl
@[simp] theorem State.drawn_fb : (s.drawn).fb = s.fb := rfl
@[simp] theorem State.drawn_mem : (s.drawn).mem = s.mem := rfl
@[simp] theorem State.drawn_mode : (s.drawn).mode = s.mode := rfl
@[simp] theorem State.drawn_faultCause : (s.drawn).faultCause = s.faultCause := rfl
@[simp] theorem State.drawn_faultAddr : (s.drawn).faultAddr = s.faultAddr := rfl
@[simp] theorem State.drawn_faultInstr : (s.drawn).faultInstr = s.faultInstr := rfl
@[simp] theorem State.drawn_cycles : (s.drawn).cycles = s.cycles := rfl
@[simp] theorem State.drawn_decodeFails : (s.drawn).decodeFails = s.decodeFails := rfl
@[simp] theorem State.drawn_rndDraws : (s.drawn).rndDraws = s.rndDraws + 1 := rfl

/-! `State.finish` -/

@[simp] theorem State.finish_params (k : OutcomeKind) : (s.finish k).params = s.params := rfl
@[simp] theorem State.finish_v (k : OutcomeKind) : (s.finish k).v = s.v := rfl
@[simp] theorem State.finish_i (k : OutcomeKind) : (s.finish k).i = s.i := rfl
@[simp] theorem State.finish_pc (k : OutcomeKind) : (s.finish k).pc = pcAfter k s.pc := rfl
@[simp] theorem State.finish_sp (k : OutcomeKind) : (s.finish k).sp = s.sp := rfl
@[simp] theorem State.finish_dt (k : OutcomeKind) : (s.finish k).dt = s.dt := rfl
@[simp] theorem State.finish_st (k : OutcomeKind) : (s.finish k).st = s.st := rfl
@[simp] theorem State.finish_stack (k : OutcomeKind) : (s.finish k).stack = s.stack := rfl
@[simp] theorem State.finish_keys (k : OutcomeKind) : (s.finish k).keys = keysAfter k s.keys := rfl
@[simp] theorem State.finish_fb (k : OutcomeKind) : (s.finish k).fb = s.fb := rfl
@[simp] theorem State.finish_mem (k : OutcomeKind) : (s.finish k).mem = s.mem := rfl
@[simp] theorem State.finish_mode (k : OutcomeKind) : (s.finish k).mode = modeAfter k := rfl
@[simp] theorem State.finish_faultCause (k : OutcomeKind) : (s.finish k).faultCause = s.faultCause := rfl
@[simp] theorem State.finish_faultAddr (k : OutcomeKind) : (s.finish k).faultAddr = s.faultAddr := rfl
@[simp] theorem State.finish_faultInstr (k : OutcomeKind) : (s.finish k).faultInstr = s.faultInstr := rfl
@[simp] theorem State.finish_cycles (k : OutcomeKind) : (s.finish k).cycles = s.cycles + 1 := rfl
@[simp] theorem State.finish_decodeFails (k : OutcomeKind) : (s.finish k).decodeFails = s.decodeFails := rfl
@[simp] theorem State.finish_rndDraws (k : OutcomeKind) : (s.finish k).rndDraws = s.rndDraws := rfl

/-! `State.takeFault` -/

@[simp] theorem State.takeFault_params (c : Fault) (a : Nat) (w : Word) : (s.takeFault c a w).params = s.params := rfl
@[simp] theorem State.takeFault_v (c : Fault) (a : Nat) (w : Word) : (s.takeFault c a w).v = s.v := rfl
@[simp] theorem State.takeFault_i (c : Fault) (a : Nat) (w : Word) : (s.takeFault c a w).i = s.i := rfl
@[simp] theorem State.takeFault_pc (c : Fault) (a : Nat) (w : Word) : (s.takeFault c a w).pc = s.pc := rfl
@[simp] theorem State.takeFault_sp (c : Fault) (a : Nat) (w : Word) : (s.takeFault c a w).sp = s.sp := rfl
@[simp] theorem State.takeFault_dt (c : Fault) (a : Nat) (w : Word) : (s.takeFault c a w).dt = s.dt := rfl
@[simp] theorem State.takeFault_st (c : Fault) (a : Nat) (w : Word) : (s.takeFault c a w).st = s.st := rfl
@[simp] theorem State.takeFault_stack (c : Fault) (a : Nat) (w : Word) : (s.takeFault c a w).stack = s.stack := rfl
@[simp] theorem State.takeFault_keys (c : Fault) (a : Nat) (w : Word) : (s.takeFault c a w).keys = s.keys := rfl
@[simp] theorem State.takeFault_fb (c : Fault) (a : Nat) (w : Word) : (s.takeFault c a w).fb = s.fb := rfl
@[simp] theorem State.takeFault_mem (c : Fault) (a : Nat) (w : Word) : (s.takeFault c a w).mem = s.mem := rfl
@[simp] theorem State.takeFault_mode (c : Fault) (a : Nat) (w : Word) : (s.takeFault c a w).mode = .faulted := rfl
@[simp] theorem State.takeFault_faultCause (c : Fault) (a : Nat) (w : Word) : (s.takeFault c a w).faultCause = c.code := rfl
@[simp] theorem State.takeFault_faultAddr (c : Fault) (a : Nat) (w : Word) : (s.takeFault c a w).faultAddr = BitVec.ofNat 17 a := rfl
@[simp] theorem State.takeFault_faultInstr (c : Fault) (a : Nat) (w : Word) : (s.takeFault c a w).faultInstr = w := rfl
@[simp] theorem State.takeFault_cycles (c : Fault) (a : Nat) (w : Word) : (s.takeFault c a w).cycles = s.cycles := rfl
@[simp] theorem State.takeFault_decodeFails (c : Fault) (a : Nat) (w : Word) : (s.takeFault c a w).decodeFails = s.decodeFails := rfl
@[simp] theorem State.takeFault_rndDraws (c : Fault) (a : Nat) (w : Word) : (s.takeFault c a w).rndDraws = s.rndDraws := rfl

/-! `State.decodeFailure` -/

@[simp] theorem State.decodeFailure_params : (s.decodeFailure).params = s.params := rfl
@[simp] theorem State.decodeFailure_v : (s.decodeFailure).v = s.v := rfl
@[simp] theorem State.decodeFailure_i : (s.decodeFailure).i = s.i := rfl
@[simp] theorem State.decodeFailure_pc : (s.decodeFailure).pc = s.pc + 2 := rfl
@[simp] theorem State.decodeFailure_sp : (s.decodeFailure).sp = s.sp := rfl
@[simp] theorem State.decodeFailure_dt : (s.decodeFailure).dt = s.dt := rfl
@[simp] theorem State.decodeFailure_st : (s.decodeFailure).st = s.st := rfl
@[simp] theorem State.decodeFailure_stack : (s.decodeFailure).stack = s.stack := rfl
@[simp] theorem State.decodeFailure_keys : (s.decodeFailure).keys = noKeys := rfl
@[simp] theorem State.decodeFailure_fb : (s.decodeFailure).fb = s.fb := rfl
@[simp] theorem State.decodeFailure_mem : (s.decodeFailure).mem = s.mem := rfl
@[simp] theorem State.decodeFailure_mode : (s.decodeFailure).mode = .running := rfl
@[simp] theorem State.decodeFailure_faultCause : (s.decodeFailure).faultCause = s.faultCause := rfl
@[simp] theorem State.decodeFailure_faultAddr : (s.decodeFailure).faultAddr = s.faultAddr := rfl
@[simp] theorem State.decodeFailure_faultInstr : (s.decodeFailure).faultInstr = s.faultInstr := rfl
@[simp] theorem State.decodeFailure_cycles : (s.decodeFailure).cycles = s.cycles + 1 := rfl
@[simp] theorem State.decodeFailure_decodeFails : (s.decodeFailure).decodeFails = s.decodeFails + 1 := rfl
@[simp] theorem State.decodeFailure_rndDraws : (s.decodeFailure).rndDraws = s.rndDraws := rfl

/-! `State.placeWord` -/

@[simp] theorem State.placeWord_params (w : Word) : (s.placeWord w).params = s.params := rfl
@[simp] theorem State.placeWord_v (w : Word) : (s.placeWord w).v = s.v := rfl
@[simp] theorem State.placeWord_i (w : Word) : (s.placeWord w).i = s.i := rfl
@[simp] theorem State.placeWord_pc (w : Word) : (s.placeWord w).pc = s.pc := rfl
@[simp] theorem State.placeWord_sp (w : Word) : (s.placeWord w).sp = s.sp := rfl
@[simp] theorem State.placeWord_dt (w : Word) : (s.placeWord w).dt = s.dt := rfl
@[simp] theorem State.placeWord_st (w : Word) : (s.placeWord w).st = s.st := rfl
@[simp] theorem State.placeWord_stack (w : Word) : (s.placeWord w).stack = s.stack := rfl
@[simp] theorem State.placeWord_keys (w : Word) : (s.placeWord w).keys = s.keys := rfl
@[simp] theorem State.placeWord_fb (w : Word) : (s.placeWord w).fb = s.fb := rfl
@[simp] theorem State.placeWord_mem (w : Word) : (s.placeWord w).mem = (s.mem.write s.pc.toNat (highByte w)).write (s.pc.toNat + 1) (lowByte w) := rfl
@[simp] theorem State.placeWord_mode (w : Word) : (s.placeWord w).mode = s.mode := rfl
@[simp] theorem State.placeWord_faultCause (w : Word) : (s.placeWord w).faultCause = s.faultCause := rfl
@[simp] theorem State.placeWord_faultAddr (w : Word) : (s.placeWord w).faultAddr = s.faultAddr := rfl
@[simp] theorem State.placeWord_faultInstr (w : Word) : (s.placeWord w).faultInstr = s.faultInstr := rfl
@[simp] theorem State.placeWord_cycles (w : Word) : (s.placeWord w).cycles = s.cycles := rfl
@[simp] theorem State.placeWord_decodeFails (w : Word) : (s.placeWord w).decodeFails = s.decodeFails := rfl
@[simp] theorem State.placeWord_rndDraws (w : Word) : (s.placeWord w).rndDraws = s.rndDraws := rfl

/-! `State.writeKey` -/

@[simp] theorem State.writeKey_params (k : Nibble) (b : Bool) : (s.writeKey k b).params = s.params := rfl
@[simp] theorem State.writeKey_v (k : Nibble) (b : Bool) : (s.writeKey k b).v = s.v := rfl
@[simp] theorem State.writeKey_i (k : Nibble) (b : Bool) : (s.writeKey k b).i = s.i := rfl
@[simp] theorem State.writeKey_pc (k : Nibble) (b : Bool) : (s.writeKey k b).pc = s.pc := rfl
@[simp] theorem State.writeKey_sp (k : Nibble) (b : Bool) : (s.writeKey k b).sp = s.sp := rfl
@[simp] theorem State.writeKey_dt (k : Nibble) (b : Bool) : (s.writeKey k b).dt = s.dt := rfl
@[simp] theorem State.writeKey_st (k : Nibble) (b : Bool) : (s.writeKey k b).st = s.st := rfl
@[simp] theorem State.writeKey_stack (k : Nibble) (b : Bool) : (s.writeKey k b).stack = s.stack := rfl
@[simp] theorem State.writeKey_keys (k : Nibble) (b : Bool) : (s.writeKey k b).keys = s.keys.set k.toNat b k.isLt := rfl
@[simp] theorem State.writeKey_fb (k : Nibble) (b : Bool) : (s.writeKey k b).fb = s.fb := rfl
@[simp] theorem State.writeKey_mem (k : Nibble) (b : Bool) : (s.writeKey k b).mem = s.mem := rfl
@[simp] theorem State.writeKey_mode (k : Nibble) (b : Bool) : (s.writeKey k b).mode = s.mode := rfl
@[simp] theorem State.writeKey_faultCause (k : Nibble) (b : Bool) : (s.writeKey k b).faultCause = s.faultCause := rfl
@[simp] theorem State.writeKey_faultAddr (k : Nibble) (b : Bool) : (s.writeKey k b).faultAddr = s.faultAddr := rfl
@[simp] theorem State.writeKey_faultInstr (k : Nibble) (b : Bool) : (s.writeKey k b).faultInstr = s.faultInstr := rfl
@[simp] theorem State.writeKey_cycles (k : Nibble) (b : Bool) : (s.writeKey k b).cycles = s.cycles := rfl
@[simp] theorem State.writeKey_decodeFails (k : Nibble) (b : Bool) : (s.writeKey k b).decodeFails = s.decodeFails := rfl
@[simp] theorem State.writeKey_rndDraws (k : Nibble) (b : Bool) : (s.writeKey k b).rndDraws = s.rndDraws := rfl

/-! `State.tickTimers` -/

@[simp] theorem State.tickTimers_params : (s.tickTimers).params = s.params := rfl
@[simp] theorem State.tickTimers_v : (s.tickTimers).v = s.v := rfl
@[simp] theorem State.tickTimers_i : (s.tickTimers).i = s.i := rfl
@[simp] theorem State.tickTimers_pc : (s.tickTimers).pc = s.pc := rfl
@[simp] theorem State.tickTimers_sp : (s.tickTimers).sp = s.sp := rfl
@[simp] theorem State.tickTimers_dt : (s.tickTimers).dt = tick s.dt := rfl
@[simp] theorem State.tickTimers_st : (s.tickTimers).st = tick s.st := rfl
@[simp] theorem State.tickTimers_stack : (s.tickTimers).stack = s.stack := rfl
@[simp] theorem State.tickTimers_keys : (s.tickTimers).keys = s.keys := rfl
@[simp] theorem State.tickTimers_fb : (s.tickTimers).fb = s.fb := rfl
@[simp] theorem State.tickTimers_mem : (s.tickTimers).mem = s.mem := rfl
@[simp] theorem State.tickTimers_mode : (s.tickTimers).mode = s.mode := rfl
@[simp] theorem State.tickTimers_faultCause : (s.tickTimers).faultCause = s.faultCause := rfl
@[simp] theorem State.tickTimers_faultAddr : (s.tickTimers).faultAddr = s.faultAddr := rfl
@[simp] theorem State.tickTimers_faultInstr : (s.tickTimers).faultInstr = s.faultInstr := rfl
@[simp] theorem State.tickTimers_cycles : (s.tickTimers).cycles = s.cycles := rfl
@[simp] theorem State.tickTimers_decodeFails : (s.tickTimers).decodeFails = s.decodeFails := rfl
@[simp] theorem State.tickTimers_rndDraws : (s.tickTimers).rndDraws = s.rndDraws := rfl

/-! `State.hostReset` -/

@[simp] theorem State.hostReset_params : (s.hostReset).params = s.params := rfl
@[simp] theorem State.hostReset_v : (s.hostReset).v = Vector.replicate 16 0 := rfl
@[simp] theorem State.hostReset_i : (s.hostReset).i = 0 := rfl
@[simp] theorem State.hostReset_pc : (s.hostReset).pc = 0x0200 := rfl
@[simp] theorem State.hostReset_sp : (s.hostReset).sp = 0 := rfl
@[simp] theorem State.hostReset_dt : (s.hostReset).dt = 0 := rfl
@[simp] theorem State.hostReset_st : (s.hostReset).st = 0 := rfl
@[simp] theorem State.hostReset_stack : (s.hostReset).stack = List.replicate s.params.stackDepth 0 := rfl
@[simp] theorem State.hostReset_keys : (s.hostReset).keys = noKeys := rfl
@[simp] theorem State.hostReset_fb : (s.hostReset).fb = clearFb s.params := rfl
@[simp] theorem State.hostReset_mem : (s.hostReset).mem = s.mem.writeBytes fontBase font := by simp only [State.hostReset]
@[simp] theorem State.hostReset_mode : (s.hostReset).mode = .running := rfl
@[simp] theorem State.hostReset_faultCause : (s.hostReset).faultCause = 0 := rfl
@[simp] theorem State.hostReset_faultAddr : (s.hostReset).faultAddr = 0 := rfl
@[simp] theorem State.hostReset_faultInstr : (s.hostReset).faultInstr = 0 := rfl
@[simp] theorem State.hostReset_cycles : (s.hostReset).cycles = 0 := rfl
@[simp] theorem State.hostReset_decodeFails : (s.hostReset).decodeFails = 0 := rfl
@[simp] theorem State.hostReset_rndDraws : (s.hostReset).rndDraws = s.rndDraws := rfl

/-! `State.afterPowerOn` -/

@[simp] theorem State.afterPowerOn_params (p : Params) : (State.afterPowerOn p).params = p := rfl
@[simp] theorem State.afterPowerOn_v (p : Params) : (State.afterPowerOn p).v = Vector.replicate 16 0 := rfl
@[simp] theorem State.afterPowerOn_i (p : Params) : (State.afterPowerOn p).i = 0 := rfl
@[simp] theorem State.afterPowerOn_pc (p : Params) : (State.afterPowerOn p).pc = 0x0200 := rfl
@[simp] theorem State.afterPowerOn_sp (p : Params) : (State.afterPowerOn p).sp = 0 := rfl
@[simp] theorem State.afterPowerOn_dt (p : Params) : (State.afterPowerOn p).dt = 0 := rfl
@[simp] theorem State.afterPowerOn_st (p : Params) : (State.afterPowerOn p).st = 0 := rfl
@[simp] theorem State.afterPowerOn_stack (p : Params) : (State.afterPowerOn p).stack = List.replicate p.stackDepth 0 := rfl
@[simp] theorem State.afterPowerOn_keys (p : Params) : (State.afterPowerOn p).keys = noKeys := rfl
@[simp] theorem State.afterPowerOn_fb (p : Params) : (State.afterPowerOn p).fb = clearFb p := rfl
@[simp] theorem State.afterPowerOn_mem (p : Params) : (State.afterPowerOn p).mem = [] := rfl
@[simp] theorem State.afterPowerOn_mode (p : Params) : (State.afterPowerOn p).mode = .running := rfl
@[simp] theorem State.afterPowerOn_faultCause (p : Params) : (State.afterPowerOn p).faultCause = 0 := rfl
@[simp] theorem State.afterPowerOn_faultAddr (p : Params) : (State.afterPowerOn p).faultAddr = 0 := rfl
@[simp] theorem State.afterPowerOn_faultInstr (p : Params) : (State.afterPowerOn p).faultInstr = 0 := rfl
@[simp] theorem State.afterPowerOn_cycles (p : Params) : (State.afterPowerOn p).cycles = 0 := rfl
@[simp] theorem State.afterPowerOn_decodeFails (p : Params) : (State.afterPowerOn p).decodeFails = 0 := rfl
@[simp] theorem State.afterPowerOn_rndDraws (p : Params) : (State.afterPowerOn p).rndDraws = 0 := rfl

/-! Register reads -/

@[simp] theorem State.setI_reg (w : Word) (y : Nibble) : (s.setI w).reg y = s.reg y := rfl
@[simp] theorem State.setDt_reg (b : Byte) (y : Nibble) : (s.setDt b).reg y = s.reg y := rfl
@[simp] theorem State.setSt_reg (b : Byte) (y : Nibble) : (s.setSt b).reg y = s.reg y := rfl
@[simp] theorem State.store_reg (a : Nat) (bs : List Byte) (y : Nibble) : (s.store a bs).reg y = s.reg y := rfl
@[simp] theorem State.push_reg (w : Word) (y : Nibble) : (s.push w).reg y = s.reg y := rfl
@[simp] theorem State.pop_reg (y : Nibble) : (s.pop).reg y = s.reg y := rfl
@[simp] theorem State.setFb_reg (fb : Framebuffer) (y : Nibble) : (s.setFb fb).reg y = s.reg y := rfl
@[simp] theorem State.drawn_reg (y : Nibble) : (s.drawn).reg y = s.reg y := rfl
@[simp] theorem State.finish_reg (k : OutcomeKind) (y : Nibble) : (s.finish k).reg y = s.reg y := rfl
@[simp] theorem State.takeFault_reg (c : Fault) (a : Nat) (w : Word) (y : Nibble) : (s.takeFault c a w).reg y = s.reg y := rfl
@[simp] theorem State.decodeFailure_reg (y : Nibble) : (s.decodeFailure).reg y = s.reg y := rfl
@[simp] theorem State.placeWord_reg (w : Word) (y : Nibble) : (s.placeWord w).reg y = s.reg y := rfl
@[simp] theorem State.writeKey_reg (k : Nibble) (b : Bool) (y : Nibble) : (s.writeKey k b).reg y = s.reg y := rfl
@[simp] theorem State.tickTimers_reg (y : Nibble) : (s.tickTimers).reg y = s.reg y := rfl

/-- A register write changes that register alone (R20). -/
@[simp] theorem State.reg_setReg (x y : Nibble) (b : Byte) :
    (s.setReg x b).reg y = if y = x then b else s.reg y := by
  simp only [State.reg, State.setReg, Vector.getElem_set, BitVec.toNat_inj, eq_comm]

/-- The flag is written last, so with `x` = 15 it is what remains (R171). -/
@[simp] theorem State.reg_setRegFlag (x y : Nibble) (b f : Byte) :
    (s.setRegFlag x b f).reg y = if y = 0xF#4 then f else if y = x then b else s.reg y := by
  simp [State.setRegFlag]

/-! Key reads -/

/-- A WriteKey changes that flag alone (R252). -/
@[simp] theorem State.key_writeKey (k j : Nibble) (b : Bool) :
    (s.writeKey k b).key j = if j = k then b else s.key j := by
  simp only [State.key, State.writeKey, Vector.getElem_set, BitVec.toNat_inj, eq_comm]

/-- All sixteen flags of `noKeys` are clear. -/
@[simp] theorem noKeys_getElem (k : Nat) (h : k < 16) : noKeys[k] = false := by
  simp [noKeys]

/-- Two register files that read the same are the same. -/
theorem State.v_ext {s t : State} (h : ∀ y, s.reg y = t.reg y) : s.v = t.v := by
  refine Vector.ext fun k hk => ?_
  simpa [State.reg, Nat.mod_eq_of_lt hk] using h (BitVec.ofNat 4 k)

end Sys2Proof.Machine
end

