-- ==== Sys2Proof/Laws/Memory.lean ====
section
/-! SUPPORT. The laws of Memory: a read after a write, and the canonical form every write keeps. -/
namespace Sys2Proof.Machine

/-! ### Read after write -/

theorem Memory.read_filter_ne (m : Memory) (a b : Nat) :
    Memory.read (m.filter (fun c => c.1 ≠ a)) b = if b = a then unlistedByte a else m.read b := by
  induction m with
  | nil => simp only [List.filter_nil, Memory.read]; split <;> simp_all
  | cons c m ih =>
    obtain ⟨k, w⟩ := c
    by_cases hk : k = a
    · simp only [List.filter_cons, hk, ne_eq, not_true, decide_false, Bool.false_eq_true, if_false, ih,
        Memory.read]
      split <;> simp_all
    · simp only [List.filter_cons, ne_eq, hk, not_false_eq_true, decide_true, if_true, Memory.read, ih]
      by_cases hb : b = k
      · subst hb; simp [hk]
      · simp [hb]

theorem Memory.read_insert (m : Memory) (a b : Nat) (v : Byte) :
    (Memory.insert a v m).read b = if b = a then v else m.read b := by
  induction m with
  | nil => simp [Memory.insert, Memory.read]
  | cons c m ih =>
    obtain ⟨k, w⟩ := c
    simp only [Memory.insert]
    split
    · simp [Memory.read]
    · split
      · subst_vars; simp only [Memory.read]; split <;> rfl
      · simp only [Memory.read, ih]
        by_cases hb : b = k
        · subst hb; simp_all [eq_comm]
        · simp [hb]

/-- A read returns the byte last written at the address, and a write leaves every other address
alone (R72). -/
@[simp] theorem Memory.read_write (m : Memory) (a b : Nat) (v : Byte) :
    (m.write a v).read b = if b = a then v else m.read b := by
  unfold Memory.write
  split
  · subst_vars; exact Memory.read_filter_ne m a b
  · exact Memory.read_insert m a b v

/-- A block write: the block holds the bytes in order, and every other address reads as before. -/
theorem Memory.read_writeBytes (m : Memory) (a b : Nat) (bs : List Byte) :
    (m.writeBytes a bs).read b =
      if a ≤ b then (bs[b - a]?).getD (m.read b) else m.read b := by
  induction bs generalizing m a with
  | nil => simp [Memory.writeBytes]
  | cons v bs ih =>
    simp only [Memory.writeBytes, ih, Memory.read_write]
    by_cases h1 : a + 1 ≤ b
    · have h2 : b - a = (b - (a + 1)) + 1 := by omega
      have h3 : b ≠ a := by omega
      simp [h1, h2, h3, show a ≤ b by omega]
    · by_cases h2 : b = a
      · subst h2; simp
      · simp [h1, h2, show ¬ a ≤ b by omega]

/-! ### The canonical form -/

theorem Memory.mem_insert (m : Memory) (a : Nat) (v : Byte) (c : Host.Cell) :
    c ∈ Memory.insert a v m → c = (a, v) ∨ c ∈ m := by
  induction m with
  | nil => simp [Memory.insert]
  | cons d m ih =>
    obtain ⟨k, w⟩ := d
    simp only [Memory.insert]
    split
    · simp
    · split
      · simp only [List.mem_cons]; rintro (h | h) <;> simp [h]
      · simp only [List.mem_cons]; rintro (h | h)
        · simp [h]
        · rcases ih h with h | h <;> simp [h]

/-- Every cell after a write is the written one or an old one. -/
theorem Memory.mem_write {m : Memory} {a : Nat} {v : Byte} {c : Host.Cell} (h : c ∈ m.write a v) :
    c = (a, v) ∨ c ∈ m := by
  unfold Memory.write at h
  split at h
  · exact .inr (List.mem_of_mem_filter h)
  · exact Memory.mem_insert m a v c h

theorem Memory.insert_rising (m : Memory) (a : Nat) (v : Byte)
    (h : m.Pairwise (fun c d => c.1 < d.1)) :
    (Memory.insert a v m).Pairwise (fun c d => c.1 < d.1) := by
  induction m with
  | nil => simp [Memory.insert]
  | cons d m ih =>
    obtain ⟨k, w⟩ := d
    obtain ⟨h1, h2⟩ := List.pairwise_cons.mp h
    simp only [Memory.insert]
    split
    · rename_i hlt
      refine List.pairwise_cons.mpr ⟨fun c hc => ?_, h⟩
      rcases List.mem_cons.mp hc with rfl | hc
      · exact hlt
      · exact Nat.lt_trans hlt (h1 c hc)
    · split
      · subst_vars; exact List.pairwise_cons.mpr ⟨h1, h2⟩
      · refine List.pairwise_cons.mpr ⟨fun c hc => ?_, ih h2⟩
        rcases Memory.mem_insert m a v c hc with rfl | hc
        · simp only; omega
        · exact h1 c hc

/-- A write keeps the canonical form. -/
theorem Memory.wf_write {m : Memory} (h : m.wf) (a : Nat) (v : Byte) : (m.write a v).wf := by
  refine ⟨?_, fun c hc => ?_⟩
  · unfold Memory.write
    split
    · exact h.1.filter _
    · exact Memory.insert_rising m a v h.1
  · unfold Memory.write at hc
    split at hc
    · exact h.2 c (List.mem_of_mem_filter hc)
    · rcases Memory.mem_insert m a v c hc with rfl | hc
      · assumption
      · exact h.2 c hc

/-- A block write keeps the canonical form. -/
theorem Memory.wf_writeBytes {m : Memory} (h : m.wf) (a : Nat) (bs : List Byte) :
    (m.writeBytes a bs).wf := by
  induction bs generalizing m a with
  | nil => exact h
  | cons v bs ih => exact ih (Memory.wf_write h a v) (a + 1)

/-- A block write within `size` keeps every cell below `size`. -/
theorem Memory.writeBytes_below {m : Memory} {size : Nat} (h : ∀ c ∈ m, c.1 < size) (a : Nat)
    (bs : List Byte) (hb : a + bs.length ≤ size) : ∀ c ∈ m.writeBytes a bs, c.1 < size := by
  induction bs generalizing m a with
  | nil => exact h
  | cons v bs ih =>
    simp only [List.length_cons] at hb
    refine ih (fun c hc => ?_) (a + 1) (by omega)
    rcases Memory.mem_write hc with rfl | hc
    · simp only; omega
    · exact h c hc

/-- Two memories in canonical form that read the same are the same list. -/
theorem Memory.eq_of_read_eq {m n : Memory} (hm : m.wf) (hn : n.wf)
    (h : ∀ a, m.read a = n.read a) : m = n := by
  have cell : ∀ {l : Memory} {c : Host.Cell}, l.wf → c ∈ l → l.read c.1 = c.2 := by
    intro l
    induction l with
    | nil => simp
    | cons d l ih =>
      obtain ⟨k, w⟩ := d
      intro c hl hc
      obtain ⟨h1, h2⟩ := List.pairwise_cons.mp hl.1
      rcases List.mem_cons.mp hc with rfl | hc
      · simp [Memory.read]
      · have hne := h1 c hc
        simp only at hne
        simp only [Memory.read, show c.1 ≠ k by omega, if_false]
        exact ih ⟨h2, fun e he => hl.2 e (List.mem_cons_of_mem _ he)⟩ hc
  have listed : ∀ {l : Memory} {a : Nat}, l.read a ≠ unlistedByte a → (a, l.read a) ∈ l := by
    intro l a
    induction l with
    | nil => simp [Memory.read]
    | cons d l ih =>
      obtain ⟨k, w⟩ := d
      simp only [Memory.read]
      split
      · subst_vars; simp
      · intro hne; exact List.mem_cons_of_mem _ (ih hne)
  have sub : ∀ {k l : Memory}, k.wf → (∀ a, k.read a = l.read a) → ∀ c ∈ k, c ∈ l := by
    intro k l hk hkl c hc
    have hv := cell hk hc
    have := listed (l := l) (a := c.1) (by rw [← hkl, hv]; exact hk.2 c hc)
    rwa [← hkl, hv] at this
  have nodup : ∀ {l : Memory}, l.wf → l.Nodup := fun hl =>
    hl.1.imp (fun hlt he => by rw [he] at hlt; exact Nat.lt_irrefl _ hlt)
  refine List.Perm.eq_of_pairwise (le := fun c d : Host.Cell => c.1 < d.1) ?_ hm.1 hn.1
    ((List.perm_ext_iff_of_nodup (nodup hm) (nodup hn)).mpr fun c =>
      ⟨sub hm h c, sub hn (fun a => (h a).symm) c⟩)
  intro c d _ _ h1 h2
  exact absurd h1 (Nat.lt_asymm h2)

/-- Reset keeps the canonical form (R273). -/
theorem State.wf_hostReset {s : State} (h : s.mem.wf) : s.hostReset.mem.wf := by
  rw [State.hostReset_mem]; exact Memory.wf_writeBytes h _ _

/-- Reset writes no cell outside Memory, which the font table lies in (R271). -/
theorem State.below_hostReset {s : State} (hp : s.params.legal)
    (h : ∀ c ∈ s.mem, c.1 < s.params.memSize) : ∀ c ∈ s.hostReset.mem, c.1 < s.params.memSize := by
  rw [State.hostReset_mem]
  refine Memory.writeBytes_below h _ _ ?_
  have hf : fontBase + font.length = 0xA0 := by decide
  simp only [Params.legal] at hp; omega

/-- After Reset the font region holds the font table and every other byte is as before (R273). -/
theorem State.read_hostReset (s : State) (a : Nat) :
    s.hostReset.mem.read a = if 0x050 ≤ a ∧ a < 0x0A0 then font.getD (a - 0x050) 0 else s.mem.read a := by
  have hlen : font.length = 80 := by decide
  rw [State.hostReset_mem, Memory.read_writeBytes, List.getD_eq_getElem?_getD, fontBase]
  by_cases h : 0x050 ≤ a
  · by_cases h2 : a < 0x0A0
    · rw [if_pos h, if_pos ⟨h, h2⟩, List.getElem?_eq_getElem (by omega)]; rfl
    · rw [if_pos h, if_neg (by omega), List.getElem?_eq_none (by omega)]; rfl
  · rw [if_neg h, if_neg (by omega)]

/-! ### The bounds check -/

/-- The check passes exactly when every accessed address exists (R63, R65). -/
theorem State.outOfBounds_eq_none (s : State) (a n : Nat) :
    s.outOfBounds a n = none ↔ n = 0 ∨ a + n ≤ s.params.memSize := by
  simp only [State.outOfBounds, ite_eq_left_iff, reduceCtorEq, imp_false, Decidable.not_not]

/-- A failing check reports the smallest accessed address outside Memory (R65). -/
theorem State.outOfBounds_eq_some (s : State) (a n b : Nat) :
    s.outOfBounds a n = some b ↔
      (a ≤ b ∧ b < a + n ∧ s.params.memSize ≤ b) ∧
        ∀ c, a ≤ c → c < a + n → s.params.memSize ≤ c → b ≤ c := by
  unfold State.outOfBounds
  split
  · simp only [reduceCtorEq, false_iff, not_and]
    omega
  · rw [Option.some.injEq]
    constructor
    · rintro rfl
      exact ⟨by omega, fun c _ _ _ => by omega⟩
    · rintro ⟨⟨h1, h2, h3⟩, h4⟩
      have := h4 (max a s.params.memSize) (by omega) (by omega) (by omega)
      omega

end Sys2Proof.Machine
end

