-- ==== Sys2Proof/Laws/Ops.lean ====
section
/-! SUPPORT. What each shared operation over registers, keys and framebuffer does, said once. -/
namespace Sys2Proof.Machine

/-! ### Register blocks (R184, R185) -/

/-- LD Vx, [I]'s loop writes the first `n` registers and leaves the others (R185). -/
theorem State.reg_loadFrom (s : State) (a n : Nat) (y : Nibble) (hn : n ≤ 16) :
    (s.loadFrom a n).reg y = if y.toNat < n then s.mem.read (a + y.toNat) else s.reg y := by
  induction n with
  | zero => simp [State.loadFrom]
  | succ k ih =>
    have hy := y.isLt
    simp only [State.loadFrom, State.reg_setReg, ih (by omega)]
    by_cases h : y = BitVec.ofNat 4 k
    · simp [h, Nat.mod_eq_of_lt (show k < 16 by omega)]
    · have : y.toNat ≠ k := fun hk => h (BitVec.eq_of_toNat_eq (by
        rw [hk, BitVec.toNat_ofNat, Nat.mod_eq_of_lt (by omega)]))
      by_cases hlt : y.toNat < k
      · simp [h, hlt, show y.toNat < k + 1 by omega]
      · simp [h, hlt, show ¬ y.toNat < k + 1 by omega]

/-- LD Vx, [I]'s loop writes V alone (R185). -/
theorem State.loadFrom_eq (s : State) (a n : Nat) :
    s.loadFrom a n = { s with v := (s.loadFrom a n).v } := by
  induction n with
  | zero => rfl
  | succ k ih => simp only [State.loadFrom]; rw [ih]; rfl

@[simp] theorem State.regsUpTo_length (s : State) (x : Nibble) :
    (s.regsUpTo x).length = x.toNat + 1 := by
  simp [State.regsUpTo]

/-- Byte `k` of the block LD [I], Vx stores is V[k] (R184). -/
theorem State.regsUpTo_getElem (s : State) (x : Nibble) (k : Nat) (h : k ≤ x.toNat) :
    (s.regsUpTo x)[k]? = some (s.reg (BitVec.ofNat 4 k)) := by
  simp [State.regsUpTo, Nat.lt_succ_of_le h]

/-! ### The lowest key (R213) -/

/-- No key is reported exactly when every flag is clear (R213). -/
theorem State.lowestKey_eq_none (s : State) : s.lowestKey = none ↔ ∀ k, s.key k = false := by
  simp only [State.lowestKey, List.find?_eq_none, List.mem_map, List.mem_range, forall_exists_index,
    and_imp, Bool.not_eq_true]
  constructor
  · intro h k; exact h k k.toNat k.isLt (by simp)
  · rintro h _ j _ rfl; exact h _

/-- The key reported is set, and every lower-numbered one is clear (R213). -/
theorem State.lowestKey_eq_some (s : State) (k : Nibble) :
    s.lowestKey = some k ↔ s.key k = true ∧ ∀ j, j.toNat < k.toNat → s.key j = false := by
  have find : ∀ n ≤ 16, ((List.range n).map (BitVec.ofNat 4)).find? s.key = some k ↔
      k.toNat < n ∧ s.key k = true ∧ ∀ j, j.toNat < k.toNat → s.key j = false := by
    intro n hn
    induction n with
    | zero => simp
    | succ n ih =>
      have ofNat_eq : ∀ j : Nibble, j.toNat = n → BitVec.ofNat 4 n = j := by rintro j rfl; simp
      have toNat_eq : (BitVec.ofNat 4 n).toNat = n := by
        rw [BitVec.toNat_ofNat]; exact Nat.mod_eq_of_lt (by omega)
      rw [List.range_succ, List.map_append, List.find?_append, Option.or_eq_some_iff, ih (by omega)]
      simp only [List.map_cons, List.map_nil, List.find?_eq_none, List.mem_map, List.mem_range,
        forall_exists_index, and_imp, Bool.not_eq_true]
      constructor
      · rintro (⟨h1, h2⟩ | ⟨h1, h2⟩)
        · exact ⟨by omega, h2⟩
        · by_cases hk : s.key (BitVec.ofNat 4 n) = true
          · simp only [List.find?_cons, hk, Option.some.injEq] at h2
            subst h2
            rw [toNat_eq]
            exact ⟨by omega, hk, fun j hj => h1 j j.toNat hj (by simp)⟩
          · simp [hk] at h2
      · rintro ⟨h1, h2, h3⟩
        by_cases hk : k.toNat = n
        · right
          rw [ofNat_eq k hk]
          refine ⟨?_, by simp [h2]⟩
          rintro _ j hj rfl
          refine h3 _ ?_
          rw [BitVec.toNat_ofNat, Nat.mod_eq_of_lt (by omega)]; omega
        · exact .inl ⟨by omega, h2, h3⟩
  have := find 16 (Nat.le_refl _)
  simpa [State.lowestKey, k.isLt] using this

/-! ### The framebuffer (R202) -/

/-- A flip inverts one pixel of the framebuffer, where that pixel exists, and no other. -/
theorem Framebuffer.pixel_flip (fb : Framebuffer) (y x y' x' : Nat) (hy : y < fb.length)
    (hx : x < (fb.getD y []).length) :
    (fb.flip y x).pixel y' x' = (fb.pixel y' x' ^^ decide ((y', x') = (y, x))) := by
  simp only [Framebuffer.pixel, Framebuffer.flip, List.getD_eq_getElem?_getD, List.getElem?_modify,
    Prod.mk.injEq] at *
  by_cases h1 : y = y'
  · subst h1
    simp only [List.getElem?_eq_getElem hy, Option.getD_some] at hx ⊢
    by_cases h2 : x = x'
    · subst h2
      simp [List.getElem?_eq_getElem hx]
    · simp [h2, show ¬ x' = x from fun h => h2 h.symm]
  · simp [h1, show ¬ y' = y from fun h => h1 h.symm]

/-- A framebuffer of `h` rows of `w` pixels (R34). -/
def Framebuffer.hasSize (fb : Framebuffer) (h w : Nat) : Prop :=
  fb.length = h ∧ ∀ row ∈ fb, row.length = w

theorem Framebuffer.hasSize_row {fb : Framebuffer} {h w y : Nat} (hs : fb.hasSize h w) (hy : y < h) :
    (fb.getD y []).length = w := by
  have hy' : y < fb.length := hs.1 ▸ hy
  rw [List.getD_eq_getElem?_getD, List.getElem?_eq_getElem hy']
  exact hs.2 _ (List.getElem_mem hy')

theorem Framebuffer.hasSize_flip {fb : Framebuffer} {h w : Nat} (hs : fb.hasSize h w) (y x : Nat) :
    (fb.flip y x).hasSize h w := by
  refine ⟨by simp [Framebuffer.flip, hs.1], fun row hrow => ?_⟩
  obtain ⟨k, hk, rfl⟩ := List.mem_iff_getElem.mp hrow
  have hk' : k < fb.length := by simpa [Framebuffer.flip] using hk
  have := hs.2 _ (List.getElem_mem hk')
  simp only [Framebuffer.flip, List.getElem_modify]
  split <;> simpa using this

theorem Framebuffer.hasSize_clear (p : Params) : Framebuffer.hasSize (clearFb p) p.dispH p.dispW :=
  ⟨by simp [clearFb], fun row hrow => by simp [clearFb] at hrow; simp [hrow.2]⟩

theorem plot_hasSize {places : List (Nat × Nat)} {fb : Framebuffer} {h w : Nat} (c : Bool)
    (hs : fb.hasSize h w) : (plot places (fb, c)).1.hasSize h w := by
  induction places generalizing fb c with
  | nil => exact hs
  | cons q rest ih => exact ih _ (Framebuffer.hasSize_flip hs q.1 q.2)

/-- After plotting, a pixel has been inverted once for every place it was plotted at (R202). -/
theorem plot_pixel {places : List (Nat × Nat)} {fb : Framebuffer} {h w : Nat} (c : Bool)
    (hs : fb.hasSize h w) (hin : ∀ q ∈ places, q.1 < h ∧ q.2 < w) (y x : Nat) :
    (plot places (fb, c)).1.pixel y x = (fb.pixel y x ^^ decide (places.count (y, x) % 2 = 1)) := by
  induction places generalizing fb c with
  | nil => simp [plot]
  | cons q rest ih =>
    obtain ⟨qy, qx⟩ := q
    have hq := hin (qy, qx) (by simp)
    simp only [plot]
    rw [ih _ (Framebuffer.hasSize_flip hs qy qx) (fun r hr => hin r (List.mem_cons_of_mem _ hr)),
      Framebuffer.pixel_flip fb qy qx y x (hs.1 ▸ hq.1) (by
        rw [Framebuffer.hasSize_row hs hq.1]; exact hq.2), List.count_cons]
    by_cases he : (y, x) = (qy, qx)
    · simp only [he, decide_true, beq_self_eq_true, if_true]
      rcases Nat.mod_two_eq_zero_or_one (List.count (qy, qx) rest) with h0 | h0
      · simp [h0, show (List.count (qy, qx) rest + 1) % 2 = 1 by omega]
      · simp [h0, show ¬ (List.count (qy, qx) rest + 1) % 2 = 1 by omega]
    · have hne : ¬ ((qy, qx) == (y, x)) = true := fun h => he (eq_of_beq h).symm
      simp [he, hne]

/-- The collision: some plotted place was a lit pixel at the moment it was plotted (R202). -/
theorem plot_collision {places : List (Nat × Nat)} {fb : Framebuffer} {h w : Nat} (c : Bool)
    (hs : fb.hasSize h w) (hin : ∀ q ∈ places, q.1 < h ∧ q.2 < w) :
    (plot places (fb, c)).2 = true ↔ c = true ∨ ∃ k, ∃ hk : k < places.length,
      (fb.pixel places[k].1 places[k].2 ^^ decide ((places.take k).count places[k] % 2 = 1)) = true := by
  induction places generalizing fb c with
  | nil => simp [plot]
  | cons q rest ih =>
    obtain ⟨qy, qx⟩ := q
    have hq := hin (qy, qx) (by simp)
    simp only [plot]
    rw [ih _ (Framebuffer.hasSize_flip hs qy qx) (fun r hr => hin r (List.mem_cons_of_mem _ hr)),
      Bool.or_eq_true, or_assoc]
    refine or_congr Iff.rfl ?_
    have shift : ∀ k (hk : k < rest.length),
        ((fb.flip qy qx).pixel rest[k].1 rest[k].2 ^^ decide ((rest.take k).count rest[k] % 2 = 1)) =
        (fb.pixel rest[k].1 rest[k].2 ^^
          decide ((((qy, qx) :: rest).take (k + 1)).count rest[k] % 2 = 1)) := by
      intro k hk
      rw [Framebuffer.pixel_flip fb qy qx _ _ (hs.1 ▸ hq.1) (by
        rw [Framebuffer.hasSize_row hs hq.1]; exact hq.2), List.take_succ_cons, List.count_cons]
      by_cases he : rest[k] = (qy, qx)
      · simp only [he, decide_true, beq_self_eq_true, if_true]
        rcases Nat.mod_two_eq_zero_or_one ((rest.take k).count (qy, qx)) with h0 | h0
        · simp [h0, show ((rest.take k).count (qy, qx) + 1) % 2 = 1 by omega]
        · simp [h0, show ¬ ((rest.take k).count (qy, qx) + 1) % 2 = 1 by omega]
      · have hne : ¬ ((qy, qx) == rest[k]) = true := fun h => he (eq_of_beq h).symm
        simp [hne, show ¬ ((rest[k].1, rest[k].2) = (qy, qx)) from he]
    constructor
    · rintro (h0 | ⟨k, hk, h1⟩)
      · exact ⟨0, by simp, by simpa using h0⟩
      · exact ⟨k + 1, by simpa using hk, by rw [shift k hk] at h1; exact h1⟩
    · rintro ⟨k, hk, h1⟩
      cases k with
      | zero => exact .inl (by simpa using h1)
      | succ k =>
        have hk' : k < rest.length := by simpa using hk
        exact .inr ⟨k, hk', by rw [shift k hk']; exact h1⟩

/-- Every place of a sprite is on the display (R202: each axis is reduced on its own). -/
theorem spritePlaces_in (p : Params) (hw : 1 ≤ p.dispW) (hh : 1 ≤ p.dispH) (m : Memory)
    (a x0 y0 n : Nat) : ∀ q ∈ spritePlaces p m a x0 y0 n, q.1 < p.dispH ∧ q.2 < p.dispW := by
  intro q hq
  simp only [spritePlaces, rowPlaces, List.mem_flatMap, List.mem_map] at hq
  obtain ⟨r, _, c, _, rfl⟩ := hq
  exact ⟨Nat.mod_lt _ hh, Nat.mod_lt _ hw⟩

end Sys2Proof.Machine
end

