-- ==== Sys2Proof/Laws/Exec.lean ====
section
/-! SUPPORT. What an instruction and a cycle can do, said once: the inversion lemmas of `exec` and
`step`, which the invariants and the whole-machine rules are derived from. -/
namespace Sys2Proof.Machine

/-- `u` is `s` but for what an instruction's own effect may write: V, I, SP, DT, ST, Stack, FB, Mem and
the model's count of draws. -/
def State.effectOf (s u : State) : Prop :=
  u = { s with v := u.v, i := u.i, sp := u.sp, dt := u.dt, st := u.st, stack := u.stack, fb := u.fb,
               mem := u.mem, rndDraws := u.rndDraws }

theorem State.effectOf_refl (s : State) : s.effectOf s := rfl

/-- An instruction either enters a fault, leaving everything else as it was (R236), or has its own
effect and then ends its cycle (R125 to R128). It never stops. -/
theorem exec_cases (i : Instr) (s : State) :
    (∃ c a, exec i s = .next (s.takeFault c a (encode i))) ∨
      ∃ u k, exec i s = .next (u.finish k) ∧ s.effectOf u := by
  cases i with
  | ret =>
    simp only [exec, execRet]
    split
    · exact .inl ⟨_, _, rfl⟩
    · exact .inr ⟨_, _, rfl, rfl⟩
  | call nnn =>
    simp only [exec, execCall]
    split
    · exact .inl ⟨_, _, rfl⟩
    · exact .inr ⟨_, _, rfl, rfl⟩
  | drw x y n =>
    simp only [exec, execDrw]
    split
    · exact .inl ⟨_, _, rfl⟩
    · exact .inr ⟨_, _, rfl, rfl⟩
  | ldB x =>
    simp only [exec, execLdB, storeAtI]
    split
    · exact .inl ⟨_, _, rfl⟩
    · exact .inr ⟨_, _, rfl, rfl⟩
  | storeRegs x =>
    simp only [exec, execStoreRegs, storeAtI]
    split
    · exact .inl ⟨_, _, rfl⟩
    · exact .inr ⟨_, _, rfl, rfl⟩
  | loadRegs x =>
    simp only [exec, execLoadRegs]
    split
    · exact .inl ⟨_, _, rfl⟩
    · refine .inr ⟨_, _, rfl, ?_⟩
      rw [State.loadFrom_eq]; rfl
  | ldVxK x =>
    simp only [exec, execLdVxK]
    split
    · exact .inr ⟨_, _, rfl, rfl⟩
    · exact .inr ⟨_, _, rfl, rfl⟩
  | _ => exact .inr ⟨_, _, rfl, rfl⟩

/-- An instruction always answers a next state. -/
theorem exec_answers (i : Instr) (s : State) : ∃ t, exec i s = .next t := by
  rcases exec_cases i s with ⟨_, _, h⟩ | ⟨_, _, h, _⟩ <;> exact ⟨_, h⟩

/-- The fetch reads a word exactly when both its bytes are in Memory (R66). -/
theorem State.fetch_none (s : State) : s.outOfBounds s.pc.toNat 2 = none ↔ s.fetchInBounds := by
  rw [State.outOfBounds_eq_none]; simp only [State.fetchInBounds]; omega

/-- A cycle begun in a state that is not stopped does one of three things: it enters a fetch fault, it
is a counted no-op, or it executes the decoded instruction (R123, R124); with its results (R129). -/
theorem cycle_cases (s : State) (hl : s.mode.stopped = false) :
    (∃ a, s.outOfBounds s.pc.toNat 2 = some a ∧
      cycle s = .next (s.takeFault .oobFetch a 0, ⟨false, .fault, 0⟩)) ∨
    (s.fetchInBounds ∧ (∃ e, decode s.fetchWord = .error e) ∧
      cycle s = .next (s.decodeFailure, ⟨false, .decodeFail, s.fetchWord⟩)) ∨
    ∃ i t, s.fetchInBounds ∧ decode s.fetchWord = .ok i ∧ exec i s = .next t ∧
      cycle s = .next (t, executedResult i s.fetchWord t) := by
  simp only [cycle, hl, Bool.false_eq_true, if_false, State.fetch]
  cases hb : s.outOfBounds s.pc.toNat 2 with
  | some a => exact .inl ⟨a, rfl, rfl⟩
  | none =>
    have hin := s.fetch_none.mp hb
    cases hd : decode s.fetchWord with
    | error e => exact .inr (.inl ⟨hin, ⟨e, rfl⟩, by simp only [hd]⟩)
    | ok i =>
      obtain ⟨t, ht⟩ := exec_answers i s
      exact .inr (.inr ⟨i, t, hin, rfl, ht, by simp only [hd, ht]⟩)

/-- The three things a step begun in a state that is not stopped can do. -/
theorem step_cases (s : State) (hl : s.mode.stopped = false) :
    (∃ a, s.outOfBounds s.pc.toNat 2 = some a ∧ step s = .next (s.takeFault .oobFetch a 0)) ∨
    (s.fetchInBounds ∧ (∃ e, decode s.fetchWord = .error e) ∧ step s = .next s.decodeFailure) ∨
    ∃ i t, s.fetchInBounds ∧ decode s.fetchWord = .ok i ∧ exec i s = .next t ∧ step s = .next t := by
  rcases cycle_cases s hl with ⟨a, h, hc⟩ | ⟨h1, h2, hc⟩ | ⟨i, t, h1, h2, h3, hc⟩
  · exact .inl ⟨a, h, by simp only [step, hc]⟩
  · exact .inr (.inl ⟨h1, h2, by simp only [step, hc]⟩)
  · exact .inr (.inr ⟨i, t, h1, h2, h3, by simp only [step, hc]⟩)

/-- A cycle begun in a stopped state does nothing (R122). -/
theorem step_stopped (s : State) (h : s.mode.stopped = true) : step s = .next s := by
  simp [step, cycle, h]

theorem Mode.stopped_eq_true (m : Mode) : m.stopped = true ↔ m = .halted ∨ m = .faulted := by
  cases m <;> simp [Mode.stopped]

theorem Mode.stopped_eq_false (m : Mode) : m.stopped = false ↔ m = .running ∨ m = .waitingForKey := by
  cases m <;> simp [Mode.stopped]

/-- No completing outcome ends in Faulted (R127). -/
theorem modeAfter_ne_faulted (k : OutcomeKind) : modeAfter k ≠ .faulted := by
  cases k <;> simp [modeAfter]

/-- Every cause code is 1 to 5 (R231). -/
theorem Fault.code_range (c : Fault) : 1 ≤ c.code.toNat ∧ c.code.toNat ≤ 5 := by
  cases c <;> decide

/-- The draw keeps the framebuffer's size (R202). -/
theorem State.afterSprite_hasSize (s : State) (x y n : Nibble) {h w : Nat} (hs : s.fb.hasSize h w) :
    (s.afterSprite x y n).1.hasSize h w :=
  plot_hasSize false hs

end Sys2Proof.Machine
end

