-- ==== Sys2Proof/Laws/PerInstr.lean ====
section
/-! SUPPORT. The per-instruction family TableRow: every instruction's word lies in its own row of the
opcode map R95, that is, the word masked with the row's `mask` is the row's `match`. -/
namespace Sys2Proof

/-- The instruction's word lies in its row of R95. -/
def Laws.TableRow.Statement (i : Instr) : Prop := encode i &&& rowMask i = rowMatch i

theorem and_mask_wordNnn (op : Nibble) (nnn : Imm12) :
    wordNnn op nnn &&& 0xF000 = wordNnn op 0 := by
  refine BitVec.eq_of_getLsbD_eq fun k hk => ?_
  simp only [wordNnn, BitVec.getLsbD_and, BitVec.getLsbD_append]
  interval_cases k <;> simp

theorem and_mask_wordXnn_op (op x : Nibble) (nn : Byte) :
    wordXnn op x nn &&& 0xF000 = wordXnn op 0 0 := by
  refine BitVec.eq_of_getLsbD_eq fun k hk => ?_
  simp only [wordXnn, BitVec.getLsbD_and, BitVec.getLsbD_append]
  interval_cases k <;> simp

theorem and_mask_wordXnn_high (op x : Nibble) (nn : Byte) :
    wordXnn op x nn &&& 0xFF00 = wordXnn op x 0 := by
  refine BitVec.eq_of_getLsbD_eq fun k hk => ?_
  simp only [wordXnn, BitVec.getLsbD_and, BitVec.getLsbD_append]
  interval_cases k <;> simp

theorem and_mask_wordXnn_kk (op x : Nibble) (nn : Byte) :
    wordXnn op x nn &&& 0xF0FF = wordXnn op 0 nn := by
  refine BitVec.eq_of_getLsbD_eq fun k hk => ?_
  simp only [wordXnn, BitVec.getLsbD_and, BitVec.getLsbD_append]
  interval_cases k <;> simp

theorem and_mask_wordXyn_op (op x y n : Nibble) :
    wordXyn op x y n &&& 0xF000 = wordXyn op 0 0 0 := by
  refine BitVec.eq_of_getLsbD_eq fun k hk => ?_
  simp only [wordXyn, BitVec.getLsbD_and, BitVec.getLsbD_append]
  interval_cases k <;> simp

theorem and_mask_wordXyn_sub (op x y n : Nibble) :
    wordXyn op x y n &&& 0xF00F = wordXyn op 0 0 n := by
  refine BitVec.eq_of_getLsbD_eq fun k hk => ?_
  simp only [wordXyn, BitVec.getLsbD_and, BitVec.getLsbD_append]
  interval_cases k <;> simp

namespace Laws.TableRow

theorem cls : Statement .cls := rfl
theorem ret : Statement .ret := rfl
theorem halt (kk : Byte) : Statement (.halt kk) := and_mask_wordXnn_high 0 0 kk
theorem jp (nnn : Imm12) : Statement (.jp nnn) := and_mask_wordNnn 0x1#4 nnn
theorem call (nnn : Imm12) : Statement (.call nnn) := and_mask_wordNnn 0x2#4 nnn
theorem ldI (nnn : Imm12) : Statement (.ldI nnn) := and_mask_wordNnn 0xA#4 nnn
theorem jpV0 (nnn : Imm12) : Statement (.jpV0 nnn) := and_mask_wordNnn 0xB#4 nnn
theorem seImm (x : Nibble) (nn : Byte) : Statement (.seImm x nn) := and_mask_wordXnn_op 0x3#4 x nn
theorem sneImm (x : Nibble) (nn : Byte) : Statement (.sneImm x nn) := and_mask_wordXnn_op 0x4#4 x nn
theorem ldImm (x : Nibble) (nn : Byte) : Statement (.ldImm x nn) := and_mask_wordXnn_op 0x6#4 x nn
theorem addImm (x : Nibble) (nn : Byte) : Statement (.addImm x nn) := and_mask_wordXnn_op 0x7#4 x nn
theorem rnd (x : Nibble) (nn : Byte) : Statement (.rnd x nn) := and_mask_wordXnn_op 0xC#4 x nn
theorem seReg (x y : Nibble) : Statement (.seReg x y) := and_mask_wordXyn_sub 0x5#4 x y 0x0#4
theorem sneReg (x y : Nibble) : Statement (.sneReg x y) := and_mask_wordXyn_sub 0x9#4 x y 0x0#4
theorem ldReg (x y : Nibble) : Statement (.ldReg x y) := and_mask_wordXyn_sub 0x8#4 x y 0x0#4
theorem orReg (x y : Nibble) : Statement (.orReg x y) := and_mask_wordXyn_sub 0x8#4 x y 0x1#4
theorem andReg (x y : Nibble) : Statement (.andReg x y) := and_mask_wordXyn_sub 0x8#4 x y 0x2#4
theorem xorReg (x y : Nibble) : Statement (.xorReg x y) := and_mask_wordXyn_sub 0x8#4 x y 0x3#4
theorem addReg (x y : Nibble) : Statement (.addReg x y) := and_mask_wordXyn_sub 0x8#4 x y 0x4#4
theorem subReg (x y : Nibble) : Statement (.subReg x y) := and_mask_wordXyn_sub 0x8#4 x y 0x5#4
theorem shr (x y : Nibble) : Statement (.shr x y) := and_mask_wordXyn_sub 0x8#4 x y 0x6#4
theorem subnReg (x y : Nibble) : Statement (.subnReg x y) := and_mask_wordXyn_sub 0x8#4 x y 0x7#4
theorem shl (x y : Nibble) : Statement (.shl x y) := and_mask_wordXyn_sub 0x8#4 x y 0xE#4
theorem drw (x y n : Nibble) : Statement (.drw x y n) := and_mask_wordXyn_op 0xD#4 x y n
theorem skp (x : Nibble) : Statement (.skp x) := and_mask_wordXnn_kk 0xE#4 x 0x9E#8
theorem sknp (x : Nibble) : Statement (.sknp x) := and_mask_wordXnn_kk 0xE#4 x 0xA1#8
theorem ldVxDt (x : Nibble) : Statement (.ldVxDt x) := and_mask_wordXnn_kk 0xF#4 x 0x07#8
theorem ldVxK (x : Nibble) : Statement (.ldVxK x) := and_mask_wordXnn_kk 0xF#4 x 0x0A#8
theorem ldDtVx (x : Nibble) : Statement (.ldDtVx x) := and_mask_wordXnn_kk 0xF#4 x 0x15#8
theorem ldStVx (x : Nibble) : Statement (.ldStVx x) := and_mask_wordXnn_kk 0xF#4 x 0x18#8
theorem addI (x : Nibble) : Statement (.addI x) := and_mask_wordXnn_kk 0xF#4 x 0x1E#8
theorem ldF (x : Nibble) : Statement (.ldF x) := and_mask_wordXnn_kk 0xF#4 x 0x29#8
theorem ldB (x : Nibble) : Statement (.ldB x) := and_mask_wordXnn_kk 0xF#4 x 0x33#8
theorem storeRegs (x : Nibble) : Statement (.storeRegs x) := and_mask_wordXnn_kk 0xF#4 x 0x55#8
theorem loadRegs (x : Nibble) : Statement (.loadRegs x) := and_mask_wordXnn_kk 0xF#4 x 0x65#8
end Laws.TableRow

end Sys2Proof
end

