-- ==== Sys2Proof/Tests/Slice0.lean ====
section
/-! SUPPORT. The model's own tests. Every expected result is taken from spec/95_test_vectors.md (the
vector's id stands in the docstring) or from the encoding patterns of R95. Each test runs one cycle. -/
namespace Sys2Proof.Tests

open Sys2Proof Sys2Proof.Machine

/-! ### Well-formedness: the one check refuses both excluded words (R98) -/

theorem test_wellFormed_refuses_halt_E0 : (Instr.halt 0xE0).wellFormed = false := by decide
theorem test_wellFormed_refuses_halt_EE : (Instr.halt 0xEE).wellFormed = false := by decide
theorem test_wellFormed_accepts_halt_FD : (Instr.halt 0xFD).wellFormed = true := by decide

/-! ### Decoding: one word per constructor, written out from its pattern in R95 -/

theorem test_decode_cls : decode 0b0000000011100000 = .ok .cls := by decide
theorem test_decode_ret : decode 0b0000000011101110 = .ok .ret := by decide
theorem test_decode_halt : decode 0b0000000011111101 = .ok (.halt 0xFD) := by decide
theorem test_decode_jp : decode 0b0001_0010_0011_0100 = .ok (.jp 0x234) := by decide
theorem test_decode_call : decode 0b0010_0010_0000_1100 = .ok (.call 0x20C) := by decide
theorem test_decode_seImm : decode 0b0011_0011_0100_0010 = .ok (.seImm 3 0x42) := by decide
theorem test_decode_sneImm : decode 0b0100_1010_0000_0101 = .ok (.sneImm 0xA 5) := by decide
theorem test_decode_seReg : decode 0b0101_0001_0010_0000 = .ok (.seReg 1 2) := by decide
theorem test_decode_ldImm : decode 0b0110_0000_0000_0101 = .ok (.ldImm 0 5) := by decide
theorem test_decode_addImm : decode 0b0111_0000_1111_1111 = .ok (.addImm 0 0xFF) := by decide
theorem test_decode_ldReg : decode 0b1000_0001_0010_0000 = .ok (.ldReg 1 2) := by decide
theorem test_decode_orReg : decode 0b1000_0000_0001_0001 = .ok (.orReg 0 1) := by decide
theorem test_decode_andReg : decode 0b1000_0000_0001_0010 = .ok (.andReg 0 1) := by decide
theorem test_decode_xorReg : decode 0b1000_0000_0001_0011 = .ok (.xorReg 0 1) := by decide
theorem test_decode_addReg : decode 0b1000_1111_0001_0100 = .ok (.addReg 0xF 1) := by decide
theorem test_decode_subReg : decode 0b1000_0000_0001_0101 = .ok (.subReg 0 1) := by decide
theorem test_decode_shr : decode 0b1000_0000_0001_0110 = .ok (.shr 0 1) := by decide
theorem test_decode_subnReg : decode 0b1000_0000_0001_0111 = .ok (.subnReg 0 1) := by decide
theorem test_decode_shl : decode 0b1000_0000_0001_1110 = .ok (.shl 0 1) := by decide
theorem test_decode_sneReg : decode 0b1001_0001_0010_0000 = .ok (.sneReg 1 2) := by decide
theorem test_decode_ldI : decode 0b1010_0011_0000_0000 = .ok (.ldI 0x300) := by decide
theorem test_decode_jpV0 : decode 0b1011_0011_0000_0000 = .ok (.jpV0 0x300) := by decide
theorem test_decode_rnd : decode 0b1100_0001_0000_1111 = .ok (.rnd 1 0xF) := by decide
theorem test_decode_drw : decode 0b1101_0001_0010_0101 = .ok (.drw 1 2 5) := by decide
theorem test_decode_skp : decode 0b1110_0011_1001_1110 = .ok (.skp 3) := by decide
theorem test_decode_sknp : decode 0b1110_0011_1010_0001 = .ok (.sknp 3) := by decide
theorem test_decode_ldVxDt : decode 0b1111_0100_0000_0111 = .ok (.ldVxDt 4) := by decide
theorem test_decode_ldVxK : decode 0b1111_0011_0000_1010 = .ok (.ldVxK 3) := by decide
theorem test_decode_ldDtVx : decode 0b1111_1010_0001_0101 = .ok (.ldDtVx 0xA) := by decide
theorem test_decode_ldStVx : decode 0b1111_0101_0001_1000 = .ok (.ldStVx 5) := by decide
theorem test_decode_addI : decode 0b1111_0010_0001_1110 = .ok (.addI 2) := by decide
theorem test_decode_ldF : decode 0b1111_0000_0010_1001 = .ok (.ldF 0) := by decide
theorem test_decode_ldB : decode 0b1111_0011_0011_0011 = .ok (.ldB 3) := by decide
theorem test_decode_storeRegs : decode 0b1111_0010_0101_0101 = .ok (.storeRegs 2) := by decide
theorem test_decode_loadRegs : decode 0b1111_0010_0110_0101 = .ok (.loadRegs 2) := by decide

/-- V92: a word of each unrecognized group. -/
theorem test_decode_unrecognized :
    decode 0x5121 = .error .group5LowNibble ∧ decode 0x9AB1 = .error .group9LowNibble ∧
    decode 0x8018 = .error .group8SubOpcode ∧ decode 0x801F = .error .group8SubOpcode ∧
    decode 0xE09F = .error .groupELowByte ∧ decode 0xF056 = .error .groupFLowByte ∧
    decode 0x0100 = .error .group0HighByte := by decide

/-- Bytes are read high byte first, and one byte is too few (R67, R90). -/
theorem test_decodeBytes :
    decodeBytes [0x60, 0x02, 0xF0] = .ok (.ldImm 0 2, [0xF0]) ∧ decodeBytes [0x60] = .error .truncated := by
  decide

theorem test_decodeTableWord :
    decodeTableWord 16 0xD015 = some (.drw 0 1 5) ∧ decodeTableWord 16 0xFF66 = none := by decide

/-! ### Running one cycle -/

/-- The reset state with the word `w` at 0x0200, changed by `f`. -/
def start (w : Word) (f : State → State) : State := f (State.reset.placeWord w)

/-- The cycle from `s` ends in a state that meets `p`. -/
def ends (s : State) (p : State → Bool) : Bool :=
  match step s with
  | .next t => p t
  | .fault _ | .refused _ => false

/-- The cycle from `s` reports `r`. -/
def reports (s : State) (r : CycleResult) : Bool :=
  match cycle s with
  | .next (_, q) => q == r
  | .fault _ | .refused _ => false

/-- The reset state with two registers set. -/
def with2 (x : Nibble) (a : Byte) (y : Nibble) (b : Byte) (s : State) : State := (s.setReg x a).setReg y b

/-- V10, V13. -/
theorem test_addReg : ends (start 0x8014 (with2 0 0xFF 1 0x01)) (fun t => t.reg 0 == 0 && t.reg 0xF == 1) := by
  decide
theorem test_addReg_VF : ends (start 0x8F14 (with2 0xF 0xFF 1 0x01)) (fun t => t.reg 0xF == 1) := by decide
/-- V17, V20. -/
theorem test_subReg : ends (start 0x8015 (with2 0 5 1 6)) (fun t => t.reg 0 == 0xFF && t.reg 0xF == 0) := by
  decide
theorem test_subReg_VF : ends (start 0x8F15 (with2 0xF 3 1 4)) (fun t => t.reg 0xF == 0) := by decide
/-- V22. -/
theorem test_subnReg : ends (start 0x8017 (with2 0 5 1 6)) (fun t => t.reg 0 == 1 && t.reg 0xF == 1) := by
  decide
/-- V25. -/
theorem test_shr :
    ends (start 0x8016 (with2 0 3 1 0xF0)) (fun t => t.reg 0 == 1 && t.reg 1 == 0xF0 && t.reg 0xF == 1) := by
  decide
/-- V29, V32. -/
theorem test_shl :
    ends (start 0x801E (with2 0 0x81 1 0xF0)) (fun t => t.reg 0 == 2 && t.reg 1 == 0xF0 && t.reg 0xF == 1) := by
  decide
theorem test_shl_VF : ends (start 0x8F0E (·.setReg 0xF 0x7F)) (fun t => t.reg 0xF == 0) := by decide
/-- V33 to V36: VF stays 7. -/
theorem test_ldReg : ends (start 0x8010 (with2 1 0xAA 0xF 7)) (fun t => t.reg 0 == 0xAA && t.reg 0xF == 7) := by
  decide
theorem test_orReg :
    ends (start 0x8011 (fun s => (with2 0 0x0F 1 0xF0 s).setReg 0xF 7))
      (fun t => t.reg 0 == 0xFF && t.reg 0xF == 7) := by decide
theorem test_andReg : ends (start 0x8012 (with2 0 0x3C 1 0x0F)) (fun t => t.reg 0 == 0x0C) := by decide
theorem test_xorReg : ends (start 0x8013 (with2 0 0xFF 1 0x0F)) (fun t => t.reg 0 == 0xF0) := by decide
/-- V38, V39. -/
theorem test_ldImm : ends (start 0x60AB (·.setReg 0 1)) (fun t => t.reg 0 == 0xAB && t.pc == 0x202) := by decide
theorem test_addImm : ends (start 0x7002 (with2 0 0xFF 0xF 7)) (fun t => t.reg 0 == 1 && t.reg 0xF == 7) := by
  decide

/-- V41: glyph 0 at (0, 0). -/
theorem test_drw_glyph :
    ends (start 0xD015 (·.setI 0x50)) (fun t =>
      t.fb.take 5 == [0xF0, 0x90, 0x90, 0x90, 0xF0].map (fun b =>
        (List.range 64).map fun c => c < 8 && (BitVec.ofNat 8 b).getLsbD (7 - c)) && t.reg 0xF == 0) := by
  decide
/-- V44: both axes wrap. -/
theorem test_drw_wraps :
    ends (start 0xD012 (fun s => ((with2 0 63 1 31 s).setI 0x300).store 0x300 [0xC0, 0xC0]))
      (fun t => t.fb.pixel 31 63 && t.fb.pixel 31 0 && t.fb.pixel 0 63 && t.fb.pixel 0 0 &&
        t.fb.pixel 0 1 == false && t.reg 0xF == 0) := by decide
/-- V48: on a 4 by 4 display a row overlaps itself: set, then cleared. -/
theorem test_drw_overlap :
    ends ((((State.afterPowerOn ⟨4096, 4, 4, 16⟩).placeWord 0xD011).setI 0x300).store 0x300 [0x88])
      (fun t => t.fb == clearFb ⟨4096, 4, 4, 16⟩ && t.reg 0xF == 1) := by decide
/-- V46: a sprite that leaves Memory. -/
theorem test_drw_faults :
    ends (start 0xD003 (fun s => (s.setI 0xFFE).setReg 0xF 9)) (fun t =>
      t.mode == .faulted && t.faultCause == 2 && t.faultAddr == 0x1000 && t.faultInstr == 0xD003 &&
        t.pc == 0x200 && t.reg 0xF == 9 && t.cycles == 0) := by decide
/-- V45: no rows. -/
theorem test_drw_no_rows :
    reports (start 0xD010 (fun s => (s.setI 0xFFFF).setReg 0xF 7)) ⟨true, .ok, 0⟩ := by decide
/-- V49. -/
theorem test_cls :
    ends (start 0x00E0 (fun s => (s.setReg 0xF 5).setFb (s.fb.flip 3 4))) (fun t =>
      t.fb == State.reset.fb && t.reg 0xF == 5) := by decide
theorem test_cls_redraws : reports (start 0x00E0 id) ⟨true, .ok, 0⟩ := by decide

/-- V50. -/
theorem test_jp : ends (start 0x1ABC id) (fun t => t.pc == 0xABC) := by decide
/-- V52. -/
theorem test_call :
    ends (start 0x2300 id) (fun t => t.pc == 0x300 && t.sp == 1 && t.stack.getD 0 0 == 0x202) := by decide
/-- V94, its last cycle: a full stack. -/
theorem test_call_faults :
    ends (start 0x2200 (fun s => { s with sp := 16 })) (fun t =>
      t.mode == .faulted && t.faultCause == 4 && t.faultAddr == 0x10 && t.faultInstr == 0x2200 && t.sp == 16) := by
  decide
/-- V53. -/
theorem test_ret :
    ends (start 0x00EE (·.push 0x456)) (fun t => t.pc == 0x456 && t.sp == 0 && t.stack.getD 0 0 == 0x456) := by
  decide
/-- V93. -/
theorem test_ret_faults : reports (start 0x00EE id) ⟨false, .fault, 0x00EE⟩ := by decide
/-- V54. -/
theorem test_jpV0 : ends (start 0xBFFF (·.setReg 0 0xFF)) (fun t => t.pc == 0x10FE && t.mode == .running) := by
  decide
/-- V55 to V62. -/
theorem test_seImm : ends (start 0x3342 (·.setReg 3 0x42)) (fun t => t.pc == 0x204) := by decide
theorem test_seImm_not : ends (start 0x3343 (·.setReg 3 0x42)) (fun t => t.pc == 0x202) := by decide
theorem test_sneImm : ends (start 0x4343 (·.setReg 3 0x42)) (fun t => t.pc == 0x204) := by decide
theorem test_sneImm_not : ends (start 0x4342 (·.setReg 3 0x42)) (fun t => t.pc == 0x202) := by decide
theorem test_seReg : ends (start 0x5340 (with2 3 0x42 4 0x42)) (fun t => t.pc == 0x204) := by decide
theorem test_seReg_not : ends (start 0x5350 (·.setReg 3 0x42)) (fun t => t.pc == 0x202) := by decide
theorem test_sneReg : ends (start 0x9350 (·.setReg 3 0x42)) (fun t => t.pc == 0x204) := by decide
theorem test_sneReg_not : ends (start 0x9340 (with2 3 0x42 4 0x42)) (fun t => t.pc == 0x202) := by decide
/-- V63, V64. -/
theorem test_halt :
    ends (start 0x00FD (·.writeKey 2 true)) (fun t =>
      t.pc == 0x200 && t.mode == .halted && t.keys == noKeys && t.cycles == 1) := by decide
theorem test_halt_zero_word : ends State.reset (fun t => t.mode == .halted && t.pc == 0x200) := by decide

/-- V66 to V69. -/
theorem test_ldI : ends (start 0xA300 id) (fun t => t.i == 0x300) := by decide
theorem test_addI : ends (start 0xF21E (fun s => (with2 2 2 0xF 9 s).setI 0xFFFF)) (fun t =>
    t.i == 1 && t.reg 0xF == 9) := by decide
theorem test_ldF : ends (start 0xF429 (·.setReg 4 0xFF)) (fun t => t.i == 0x54B) := by decide
/-- V70, V72. -/
theorem test_ldB :
    ends (start 0xF033 (fun s => (s.setReg 0 0xFE).setI 0x300)) (fun t =>
      t.mem.read 0x300 == 2 && t.mem.read 0x301 == 5 && t.mem.read 0x302 == 4) := by decide
theorem test_ldB_faults :
    ends (start 0xF333 (fun s => (s.setReg 3 0x7B).setI 0xFFE)) (fun t =>
      t.faultCause == 3 && t.faultAddr == 0x1000 && t.faultInstr == 0xF333 && t.mem.read 0xFFE == 0) := by decide
/-- V74, V75. -/
theorem test_storeRegs :
    ends (start 0xF055 (fun s => (with2 0 0xAB 1 0xCD s).setI 0xFFF)) (fun t =>
      t.mem.read 0xFFF == 0xAB && t.i == 0xFFF && t.mode == .running) := by decide
theorem test_storeRegs_faults :
    ends (start 0xF155 (fun s => (with2 0 0xAB 1 0xCD s).setI 0xFFF)) (fun t =>
      t.mode == .faulted && t.faultAddr == 0x1000 && t.faultInstr == 0xF155 && t.mem.read 0xFFF == 0) := by decide
/-- P2, its load; V76. -/
theorem test_loadRegs :
    ends (start 0xF265 (fun s => (s.setI 0x300).store 0x300 [2, 5, 4, 9])) (fun t =>
      t.reg 0 == 2 && t.reg 1 == 5 && t.reg 2 == 4 && t.reg 3 == 0) := by decide
theorem test_loadRegs_faults :
    ends (start 0xF165 (fun s => (with2 0 0xAB 1 0xCD s).setI 0xFFF)) (fun t =>
      t.faultCause == 2 && t.faultAddr == 0x1000 && t.reg 0 == 0xAB) := by decide

/-- V78, V80, V81. -/
theorem test_skp :
    ends (start 0xE39E (fun s => (s.setReg 3 7).writeKey 7 true)) (fun t => t.pc == 0x204 && t.keys == noKeys) := by
  decide
theorem test_skp_low_nibble :
    ends (start 0xE39E (fun s => (s.setReg 3 0x1A).writeKey 10 true)) (fun t => t.pc == 0x204) := by decide
theorem test_sknp : ends (start 0xE3A1 (·.setReg 3 7)) (fun t => t.pc == 0x204) := by decide
theorem test_sknp_not :
    ends (start 0xE3A1 (fun s => (s.setReg 3 0x1A).writeKey 10 true)) (fun t => t.pc == 0x202) := by decide
/-- V83, V84. -/
theorem test_ldVxK :
    ends (start 0xFF0A (fun s => (s.writeKey 9 true).writeKey 4 true)) (fun t =>
      t.reg 0xF == 4 && t.pc == 0x202 && t.keys == noKeys && t.mode == .running) := by decide
theorem test_ldVxK_waits :
    ends (start 0xF30A id) (fun t =>
      t.reg 3 == 0 && t.pc == 0x200 && t.mode == .waitingForKey && t.cycles == 1) := by decide
/-- V85 to V87. -/
theorem test_ldVxDt : ends (start 0xF407 (·.setDt 0x1C)) (fun t => t.reg 4 == 0x1C && t.dt == 0x1C) := by decide
theorem test_ldDtVx : ends (start 0xFA15 (·.setReg 0xA 0x1E)) (fun t => t.dt == 0x1E) := by decide
theorem test_ldStVx : ends (start 0xF518 (·.setReg 5 3)) (fun t => t.st == 3) := by decide
/-- V88, with the random byte of the vector. -/
theorem test_rnd : (rndWith 0xA7 1 0x0F (State.reset.setReg 1 0xF0)).reg 1 = 7 := by decide
/-- V89: a zero mask gives 0 whatever the byte is. -/
theorem test_rnd_zero_mask : (rndWith (Config.rndInput 0) 1 0 State.reset).reg 1 = 0 := by
  simp [rndWith, State.finish, State.setReg, State.reg]

/-- V91. -/
theorem test_decode_failure :
    ends (start 0x0100 (fun s => (s.setReg 0 5).writeKey 3 true)) (fun t =>
      t.pc == 0x202 && t.decodeFails == 1 && t.cycles == 1 && t.keys == noKeys && t.reg 0 == 5) := by decide
theorem test_decode_failure_reports : reports (start 0x0100 id) ⟨false, .decodeFail, 0x0100⟩ := by decide
/-- V95, V96. -/
theorem test_fetch_faults_second_byte :
    ends { State.reset with pc := 0x0FFF } (fun t =>
      t.mode == .faulted && t.faultCause == 1 && t.faultAddr == 0x1000 && t.faultInstr == 0 && t.pc == 0x0FFF) := by
  decide
theorem test_fetch_faults_first_byte :
    ends { State.reset with pc := 0x1000 } (fun t => t.faultCause == 1 && t.faultAddr == 0x1000) := by decide
/-- V98. -/
theorem test_idle :
    reports { State.reset with mode := .faulted, faultCause := 5 } ⟨false, .idle, 0⟩ := by decide
/-- V65: an odd PC fetches like any other. -/
theorem test_odd_pc :
    ends { State.reset.store 0x200 [0x12, 0x03, 0x6A, 0xAB] with pc := 0x203 } (fun t =>
      t.i == 0xB00 && t.pc == 0x205) := by decide

/-- The fixed interface: the word is fetched and run as the first instruction. -/
theorem test_withFetchWord : ends (State.reset.withFetchWord 16 0x60AB) (fun t => t.reg 0 == 0xAB) := by decide

/-! ### Host operations -/

/-- V90. -/
theorem test_tickTimers :
    (State.reset.setDt 2).tickTimers.dt = 1 ∧ (State.reset.setDt 2).tickTimers.st = 0 := by decide
/-- V101, V102, on a machine of 0x204 bytes: 5 bytes do not fit, 4 do. -/
theorem test_loadProgram :
    ((State.afterPowerOn ⟨0x204, 64, 32, 16⟩).loadProgram [1, 2, 3, 4, 5]).2 = false ∧
    ((State.afterPowerOn ⟨0x204, 64, 32, 16⟩).loadProgram [1, 2, 3, 4]).2 = true := by decide
/-- V104. -/
theorem test_hostReset :
    ((State.reset.store 0x50 [0]).store 0x200 [0x12]).hostReset.mem.read 0x50 = 0xF0 ∧
    ((State.reset.store 0x50 [0]).store 0x200 [0x12]).hostReset.mem.read 0x200 = 0x12 := by decide +kernel
/-- V105. -/
theorem test_writeKey :
    ends (start 0xE09E (fun s => ((s.setReg 0 5).writeKey 5 true).writeKey 5 false)) (fun t => t.pc == 0x202) := by
  decide
/-- R271. -/
theorem test_powerOn_refuses :
    powerOn ⟨0x201, 64, 32, 16⟩ = .refused .illegalParameters := rfl

/-- R68: the first byte of glyph 0, the glyphs 7 and F, and the bytes around the table. -/
theorem test_font :
    State.reset.mem.read 0x04F = 0 ∧ State.reset.mem.read 0x050 = 0xF0 ∧
    (List.range 5).map (fun j => State.reset.mem.read (0x073 + j)) = [0xF0, 0x10, 0x20, 0x40, 0x40] ∧
    (List.range 5).map (fun j => State.reset.mem.read (0x09B + j)) = [0xF0, 0x80, 0xF0, 0x80, 0x80] ∧
    State.reset.mem.read 0x0A0 = 0 := by decide

/-! ### Witnesses: for every obligation with hypotheses, concrete states and operands that meet them,
one for each clause, at the boundary of its range. Each is named after its obligation. -/

/-- The operation `op` on `s` ends in a state that meets `p`. -/
def opEnds (s : State) (op : HostOp) (p : State → Bool) : Bool :=
  match applyOp s op with
  | .next t => p t
  | .fault _ | .refused _ => false

/-- `i` on `s` ends in a state that meets `p`. -/
def execEnds (i : Instr) (s : State) (p : State → Bool) : Bool :=
  match exec i s with
  | .next t => p t
  | .fault _ | .refused _ => false

/-- The cycle from `s`, with its results, ends in a state that meets `p`. -/
def cycleEnds (s : State) (p : State → Bool) : Bool :=
  match cycle s with
  | .next (t, _) => p t
  | .fault _ | .refused _ => false

theorem exists_of_cycleEnds {s : State} {p : State → Bool} (h : cycleEnds s p = true) :
    ∃ t r, cycle s = .next (t, r) ∧ p t = true := by
  unfold cycleEnds at h
  split at h <;> simp_all

theorem exists_of_ends {s : State} {p : State → Bool} (h : ends s p = true) :
    ∃ t, step s = .next t ∧ p t = true := by
  unfold ends at h
  split at h <;> simp_all

theorem exists_of_opEnds {s : State} {op : HostOp} {p : State → Bool} (h : opEnds s op p = true) :
    ∃ t, applyOp s op = .next t ∧ p t = true := by
  unfold opEnds at h
  split at h <;> simp_all

theorem exists_of_execEnds {i : Instr} {s : State} {p : State → Bool} (h : execEnds i s p = true) :
    ∃ t, exec i s = .next t ∧ p t = true := by
  unfold execEnds at h
  split at h <;> simp_all

/-- The reset state with PC, SP, I or MODE set. -/
def atPc (pc : Word) : State := { State.reset with pc := pc }
def atSp (sp : Byte) : State := { State.reset with sp := sp }
def atI (i : Word) : State := { State.reset with i := i }
def inMode (m : Mode) : State := { State.reset with mode := m }

theorem witness_DecodeOfEncode :
    (Instr.drw 0xF 0xF 0xF).wellFormed = true ∧ (Instr.halt 0xEF).wellFormed = true := by decide

theorem witness_EncodeOfDecode : decode 0x8FFE = .ok (.shl 0xF 0xF) := by decide

theorem witness_OpcodeMapSelectsTheRow :
    (Instr.halt 0xFD).wellFormed = true ∧ rowMatch (.halt 0xFD) = 0x0000 ∧
    (Instr.sknp 3).wellFormed = true ∧ rowMatch (.sknp 3) ≠ 0x0000 := by decide

/-- The last PC that still fetches. -/
theorem witness_StepRunsTheDecodedInstruction :
    let s : State := { atPc 0x0FFE with mem := [(0xFFE, 0x12), (0xFFF, 0x34)] }
    s.live ∧ s.fetchInBounds ∧
      decode (wordOfBytes (s.mem.read s.pc.toNat) (s.mem.read (s.pc.toNat + 1))) = .ok (.jp 0x234) := by
  decide

theorem witness_IdleCycleChangesNothing : (inMode .halted).runOver ∧ (inMode .faulted).runOver := by decide

theorem witness_FetchOutsideMemoryFaults_first :
    (atPc 0x1000).live ∧ (atPc 0x1000).params.memSize ≤ (atPc 0x1000).pc.toNat := by decide
theorem witness_FetchOutsideMemoryFaults_second :
    (atPc 0x0FFF).live ∧ (atPc 0x0FFF).params.memSize = (atPc 0x0FFF).pc.toNat + 1 := by decide

theorem witness_UnrecognizedWordIsACountedNoOp :
    (start 0x5121 id).live ∧ (start 0x5121 id).fetchInBounds ∧
      decode (start 0x5121 id).fetchWord = .error .group5LowNibble := by decide

theorem witness_EndOfCycleFollowsTheOutcome_waiting :
    (start 0xF30A id).live ∧ ∃ t, step (start 0xF30A id) = .next t ∧ (t.mode == .waitingForKey) = true :=
  ⟨by decide, exists_of_ends (by decide)⟩
theorem witness_EndOfCycleFollowsTheOutcome_halted :
    (start 0x00FD id).live ∧ ∃ t, step (start 0x00FD id) = .next t ∧ (t.mode == .halted) = true :=
  ⟨by decide, exists_of_ends (by decide)⟩
theorem witness_EndOfCycleFollowsTheOutcome_running :
    (start 0x1ABC id).live ∧ ∃ t, step (start 0x1ABC id) = .next t ∧ (t.mode == .running) = true :=
  ⟨by decide, exists_of_ends (by decide)⟩

theorem witness_HowEachCycleLeavesPc_kept :
    ∃ t, step (start 0x00FD id) = .next t ∧ (t.mode != .running) = true := exists_of_ends (by decide)
/-- A skip at the top of the PC's range, where the sum wraps: V[x] = nn at PC = 0xFFFE. -/
theorem witness_HowEachCycleLeavesPc_running :
    let s : State := ({ State.afterPowerOn ⟨0x10000, 64, 32, 16⟩ with pc := 0xFFFE }).placeWord 0x3000
    s.live ∧ ∃ t, step s = .next t ∧ (t.mode == .running && t.pc == 2) = true :=
  ⟨by decide, exists_of_ends (by decide)⟩

theorem witness_ModeStateMachine_reset :
    ∃ t, applyOp (inMode .faulted) .reset = .next t ∧ (t.mode == .running) = true :=
  exists_of_opEnds (by decide +kernel)
theorem witness_ModeStateMachine_other :
    ∃ t, applyOp (inMode .halted) .tickTimers = .next t ∧ (t.mode == .halted) = true :=
  exists_of_opEnds (by decide)
theorem witness_ModeStateMachine_idle :
    (inMode .halted).runOver ∧ ∃ t, applyOp (inMode .halted) .cycle = .next t ∧ (t.mode == .halted) = true :=
  ⟨by decide, exists_of_opEnds (by decide)⟩
theorem witness_ModeStateMachine_fault :
    (start 0x00EE id).live ∧ (start 0x00EE id).fetchInBounds ∧
      ∃ t, applyOp (start 0x00EE id) .cycle = .next t ∧ (t.mode == .faulted) = true :=
  ⟨by decide, by decide, exists_of_opEnds (by decide)⟩
theorem witness_ModeStateMachine_halt :
    (start 0x0000 id).live ∧ ∃ t, applyOp (start 0x0000 id) .cycle = .next t ∧ (t.mode == .halted) = true :=
  ⟨by decide, exists_of_opEnds (by decide)⟩
theorem witness_ModeStateMachine_wait :
    (start 0xFF0A id).live ∧
      ∃ t, applyOp (start 0xFF0A id) .cycle = .next t ∧ (t.mode == .waitingForKey) = true :=
  ⟨by decide, exists_of_opEnds (by decide)⟩

/-- Also the witness of HostOperationsKeepTheInvariant, ReturnAfterCallComesBack and DRW's `shaped`. -/
theorem witness_inv : State.reset.inv ∧ (start 0x2300 id).inv := by decide +kernel
theorem witness_StepKeepsTheInvariant :
    ∃ t, step (start 0x2300 id) = .next t ∧ (t.sp == 1) = true := exists_of_ends (by decide)

/-- Both ends of every range of R271, and one step outside each. -/
theorem witness_PowerOnMeetsTheInvariant_legal :
    (Params.mk 0x202 1 1 1).legal ∧ (Params.mk 0x10000 65536 65536 255).legal := by decide
theorem witness_PowerOnMeetsTheInvariant_memSize :
    ¬ (Params.mk 0x201 1 1 1).legal ∧ ¬ (Params.mk 0x10001 1 1 1).legal := by decide
theorem witness_PowerOnMeetsTheInvariant_display :
    ¬ (Params.mk 0x202 0 1 1).legal ∧ ¬ (Params.mk 0x202 1 65537 1).legal := by decide
theorem witness_PowerOnMeetsTheInvariant_stack :
    ¬ (Params.mk 0x202 1 1 0).legal ∧ ¬ (Params.mk 0x202 1 1 256).legal := by decide

theorem witness_FaultEntryWritesFourElements_fetched :
    (start 0x00EE id).live ∧ (start 0x00EE id).fetchInBounds ∧
      ∃ t r, cycle (start 0x00EE id) = .next (t, r) ∧ (t.mode == .faulted) = true :=
  ⟨by decide, by decide, exists_of_cycleEnds (by decide)⟩
theorem witness_FaultEntryWritesFourElements_not_fetched :
    (atPc 0xFFFF).live ∧ ¬ (atPc 0xFFFF).fetchInBounds ∧
      ∃ t r, cycle (atPc 0xFFFF) = .next (t, r) ∧ (t.mode == .faulted) = true :=
  ⟨by decide, by decide, exists_of_cycleEnds (by decide)⟩

theorem witness_WhichInstructionFaultsHow_stack :
    (∃ t, exec .ret (atSp 0) = .next t ∧ (t.mode == .faulted) = true) ∧
    ∃ t, exec (.call 0x300) (atSp 16) = .next t ∧ (t.mode == .faulted) = true :=
  ⟨exists_of_execEnds (by decide), exists_of_execEnds (by decide)⟩
theorem witness_WhichInstructionFaultsHow_read :
    (∃ t, exec (.drw 0 0 2) (atI 0xFFF) = .next t ∧ (t.mode == .faulted) = true) ∧
    ∃ t, exec (.loadRegs 1) (atI 0xFFF) = .next t ∧ (t.mode == .faulted) = true :=
  ⟨exists_of_execEnds (by decide), exists_of_execEnds (by decide)⟩
theorem witness_WhichInstructionFaultsHow_write :
    (∃ t, exec (.ldB 0) (atI 0xFFE) = .next t ∧ (t.mode == .faulted) = true) ∧
    ∃ t, exec (.storeRegs 0) (atI 0x1000) = .next t ∧ (t.mode == .faulted) = true :=
  ⟨exists_of_execEnds (by decide), exists_of_execEnds (by decide)⟩

theorem witness_FaultIsKeptUntilReset :
    let s : State := { inMode .faulted with faultCause := 5, faultInstr := 0x00EE }
    s.mode = .faulted ∧ HostOp.loadProgram [0x12, 0x00] ≠ .reset ∧
      ∃ t, applyOp s (.loadProgram [0x12, 0x00]) = .next t ∧ (t.faultCause == 5) = true :=
  ⟨rfl, by decide, exists_of_opEnds (by decide)⟩

/-- The statements that speak of a register other than the destination, and of x other than 15. -/
theorem witness_other_registers : (0x0#4 ≠ 0xF#4) ∧ (0xE#4 ≠ 0x0#4 ∧ 0xE#4 ≠ 0xF#4) := by decide

theorem witness_ReturnPopsThePc : (atSp 1).sp ≠ 0 ∧ (atSp 255).sp ≠ 0 ∧ (atSp 0).sp = 0 := by decide

theorem witness_HaltStopsTheMachine : (0x00#8 ≠ 0xE0 ∧ 0x00#8 ≠ 0xEE) ∧ (0xFF#8 ≠ 0xE0 ∧ 0xFF#8 ≠ 0xEE) := by
  decide

theorem witness_CallPushesTheReturnAddress :
    (atSp 15).sp.toNat ≠ (atSp 15).params.stackDepth ∧ (atSp 16).sp.toNat = (atSp 16).params.stackDepth := by
  decide

theorem witness_ReturnAfterCallComesBack :
    ∃ t, exec (.call 0x300) (start 0x2300 id) = .next t ∧ (t.mode == .running) = true :=
  exists_of_execEnds (by decide)

theorem witness_StoreDecimalDigits :
    (atI 0xFFD).i.toNat + 2 < (atI 0xFFD).params.memSize ∧
    (atI 0xFFE).params.memSize ≤ (atI 0xFFE).i.toNat + 2 := by decide

/-- StoreRegisters, LoadRegisters and StoreThenLoadRestores, with the largest block and with one byte. -/
theorem witness_StoreRegisters :
    (atI 0xFF0).i.toNat + (0xF#4).toNat < (atI 0xFF0).params.memSize ∧
    (atI 0xFFF).i.toNat + (0x0#4).toNat < (atI 0xFFF).params.memSize ∧
    (atI 0xFFF).params.memSize ≤ (atI 0xFFF).i.toNat + (0x1#4).toNat ∧
    (atI 0xFFFF).params.memSize ≤ (atI 0xFFFF).i.toNat + (0x0#4).toNat := by decide

theorem witness_DrawPlotsTheSprite :
    ((0x1#4) ≠ 0 ∧ (atI 0x1000).params.memSize < (atI 0x1000).i.toNat + (0x1#4).toNat) ∧
    (atI 0xFF1).shaped ∧ (atI 0xFF1).i.toNat + (0xF#4).toNat ≤ (atI 0xFF1).params.memSize ∧
    (atI 0xFFFF).shaped := by decide +kernel

/-- The narrowest display the statement admits, and the default one. -/
theorem witness_DrawOnAWideDisplay :
    let s := State.afterPowerOn ⟨0x202, 8, 15, 1⟩
    s.shaped ∧ 8 ≤ s.params.dispW ∧ (0xF#4).toNat ≤ s.params.dispH ∧
      s.i.toNat + (0xF#4).toNat ≤ s.params.memSize ∧
      State.reset.shaped ∧ 8 ≤ State.reset.params.dispW ∧ (0xF#4).toNat ≤ State.reset.params.dispH := by
  decide +kernel

/-- A display on which the sprite overlaps itself. -/
theorem witness_DrawTwiceRestoresTheDisplay :
    let s := State.afterPowerOn ⟨0x202, 4, 4, 1⟩
    s.shaped ∧ (0x0#4) ≠ 0xF#4 ∧ (0xE#4) ≠ 0xF#4 ∧ s.i.toNat + (0xF#4).toNat ≤ s.params.memSize := by
  decide +kernel

theorem witness_WaitForKey :
    (∀ k, State.reset.key k = false) ∧
    ((State.reset.writeKey 0 true).key 0 = true ∧
      ∀ j : Nibble, j.toNat < 0 → (State.reset.writeKey 0 true).key j = false) ∧
    ((State.reset.writeKey 15 true).key 15 = true ∧
      ∀ j : Nibble, j.toNat < 15 → (State.reset.writeKey 15 true).key j = false) := by decide

theorem witness_LoadProgramCopiesTheBytes :
    0x200 + [(1 : Byte), 2].length ≤ (State.afterPowerOn ⟨0x202, 1, 1, 1⟩).params.memSize ∧
    (State.afterPowerOn ⟨0x202, 1, 1, 1⟩).params.memSize < 0x200 + [(1 : Byte), 2, 3].length := by decide

theorem witness_WhoWritesTheSpecialRegisters_i_sp :
    (∃ t, step (start 0xA300 id) = .next t ∧ (t.i != (start 0xA300 id).i) = true) ∧
    ∃ t, step (start 0x2300 id) = .next t ∧
      (t.sp != (start 0x2300 id).sp && t.stack != (start 0x2300 id).stack) = true :=
  ⟨exists_of_ends (by decide), exists_of_ends (by decide)⟩
theorem witness_WhoWritesTheSpecialRegisters_timers :
    (∃ t, step (start 0xFA15 (·.setReg 0xA 1)) = .next t ∧
      (t.dt != (start 0xFA15 (·.setReg 0xA 1)).dt) = true) ∧
    ∃ t, step (start 0xF518 (·.setReg 5 3)) = .next t ∧
      (t.st != (start 0xF518 (·.setReg 5 3)).st) = true :=
  ⟨exists_of_ends (by decide), exists_of_ends (by decide)⟩
theorem witness_WhoWritesTheStorages_fb_mem :
    (∃ t, step (start 0xD015 (·.setI 0x50)) = .next t ∧
      (t.fb != (start 0xD015 (·.setI 0x50)).fb) = true) ∧
    ∃ t, step (start 0xF055 (fun s => (s.setReg 0 7).setI 0x300)) = .next t ∧
      (t.mem != (start 0xF055 (fun s => (s.setReg 0 7).setI 0x300)).mem) = true :=
  ⟨exists_of_ends (by decide +kernel), exists_of_ends (by decide +kernel)⟩

theorem witness_WhoWritesVF :
    ∃ t, step (start 0x8014 (with2 0 0xFF 1 1)) = .next t ∧
      (t.reg 0xF != (start 0x8014 (with2 0 0xFF 1 1)).reg 0xF) = true := exists_of_ends (by decide)
theorem witness_WhoWritesAGeneralRegister :
    ∃ t, step (start 0x60AB id) = .next t ∧ (t.reg 0 != (start 0x60AB id).reg 0) = true :=
  exists_of_ends (by decide)

/-- Self-modifying code: LD [I], V1 at 0x200 stores over the word at 0x202. -/
theorem witness_StoredBytesAreFetched :
    (atI 0x202).i.toNat + (0x1#4).toNat < (atI 0x202).params.memSize ∧ (0x0#4).toNat < (0x1#4).toNat ∧
      ((atI 0x202).pc + 2).toNat = (atI 0x202).i.toNat + (0x0#4).toNat := by decide

end Sys2Proof.Tests
end

section
/-! PROOFS. One instruction taken apart once: its fault, its own effect and its outcome kind (R124), and
the equation that puts `exec` together from them. The effect's frame laws stand here too. -/
namespace Sys2Proof
open Machine

/-- The fault the instruction raises in `s`, with its address: the checks of R32, R31, R65. -/
def Instr.fault (i : Instr) (s : State) : Option (Fault × Nat) :=
  match i with
  | .ret => if s.sp = 0 then some (.stackUnderflow, s.sp.toNat) else none
  | .call _ => if s.sp.toNat = s.params.stackDepth then some (.stackOverflow, s.sp.toNat) else none
  | .drw _ _ n => (s.outOfBounds s.base n.toNat).map fun a => (.oobDataRead, a)
  | .loadRegs x => (s.outOfBounds s.base (x.toNat + 1)).map fun a => (.oobDataRead, a)
  | .ldB _ => (s.outOfBounds s.base 3).map fun a => (.oobDataWrite, a)
  | .storeRegs x => (s.outOfBounds s.base (x.toNat + 1)).map fun a => (.oobDataWrite, a)
  | _ => none

/-- What the instruction itself writes when it raises no fault, before its cycle ends (R124). -/
def Instr.effect (i : Instr) (s : State) : State :=
  match i with
  | .cls => s.setFb (clearFb s.params)
  | .ret => s.pop
  | .call _ => s.push s.returnAddress
  | .ldImm x nn => s.setReg x nn
  | .addImm x nn => s.setReg x (addByte (s.reg x) nn)
  | .ldReg x y => s.setReg x (s.reg y)
  | .orReg x y => s.setReg x (s.reg x ||| s.reg y)
  | .andReg x y => s.setReg x (s.reg x &&& s.reg y)
  | .xorReg x y => s.setReg x (s.reg x ^^^ s.reg y)
  | .addReg x y => s.setRegFlag x (addByte (s.reg x) (s.reg y)) (carryFlag (s.reg x) (s.reg y))
  | .subReg x y => s.setRegFlag x (subByte (s.reg x) (s.reg y)) (noBorrowFlag (s.reg x) (s.reg y))
  | .shr x _ => s.setRegFlag x (shrByte (s.reg x)) (shrFlag (s.reg x))
  | .subnReg x y => s.setRegFlag x (subByte (s.reg y) (s.reg x)) (noBorrowFlag (s.reg y) (s.reg x))
  | .shl x _ => s.setRegFlag x (shlByte (s.reg x)) (shlFlag (s.reg x))
  | .ldI nnn => s.setI (zext16 nnn)
  | .addI x => s.setI (s.indexSum x)
  | .ldF x => s.setI (glyphAddress (s.reg x))
  | .rnd x nn => s.drawn.setReg x (Config.rndInput s.rndDraws &&& nn)
  | .drw x y n => (s.setFb (s.afterSprite x y n).1).setReg 0xF#4 (flag (s.afterSprite x y n).2)
  | .ldVxDt x => s.setReg x s.dt
  | .ldVxK x => s.lowestKey.elim s fun k => s.setReg x (k.setWidth 8)
  | .ldDtVx x => s.setDt (s.reg x)
  | .ldStVx x => s.setSt (s.reg x)
  | .ldB x => s.store s.base (bcd (s.reg x))
  | .storeRegs x => s.store s.base (s.regsUpTo x)
  | .loadRegs x => s.loadFrom s.base (x.toNat + 1)
  | .halt _ | .jp _ | .jpV0 _ | .seImm _ _ | .sneImm _ _ | .seReg _ _ | .sneReg _ _ | .skp _ | .sknp _ => s

/-- The outcome kind of the instruction when it raises no fault (R124). -/
def Instr.outcome (i : Instr) (s : State) : OutcomeKind :=
  match i with
  | .ret => .goto s.top
  | .halt _ => .halt
  | .jp nnn | .call nnn => .goto (zext16 nnn)
  | .jpV0 nnn => .goto (s.jumpV0Target nnn)
  | .seImm x nn => s.skipIf (s.reg x == nn)
  | .sneImm x nn => s.skipIf (s.reg x != nn)
  | .seReg x y => s.skipIf (s.reg x == s.reg y)
  | .sneReg x y => s.skipIf (s.reg x != s.reg y)
  | .skp x => s.skipIf (s.key (s.keyNumber x))
  | .sknp x => s.skipIf (!s.key (s.keyNumber x))
  | .ldVxK _ => s.lowestKey.elim .wait fun _ => .next
  | _ => .next

/-- The registers the instruction may write: its field `x` as the destination, VF as the flag, or the
block LD Vx, [I] loads. -/
def Instr.mayWriteReg (i : Instr) (z : Nibble) : Prop :=
  match i with
  | .ldImm x _ | .addImm x _ | .rnd x _ | .ldReg x _ | .orReg x _ | .andReg x _ | .xorReg x _
  | .ldVxDt x | .ldVxK x => z = x
  | .addReg x _ | .subReg x _ | .shr x _ | .subnReg x _ | .shl x _ => z = 0xF#4 ∨ z = x
  | .drw _ _ _ => z = 0xF#4
  | .loadRegs x => z.toNat ≤ x.toNat
  | _ => False

end Sys2Proof

namespace Sys2Proof.Machine

variable {i : Instr} {s t : State}

/-- `exec` is fault entry, or the effect followed by the end of the cycle (R124 to R128, R236). -/
theorem exec_eq (i : Instr) (s : State) :
    exec i s = .next ((i.fault s).elim ((i.effect s).finish (i.outcome s))
      fun f => s.takeFault f.1 f.2 (encode i)) := by
  cases i with
  | ret => simp only [exec, execRet, Instr.fault]; split <;> rfl
  | call nnn => simp only [exec, execCall, Instr.fault]; split <;> rfl
  | drw x y n =>
    simp only [exec, execDrw, Instr.fault]
    cases s.outOfBounds s.base n.toNat <;> rfl
  | loadRegs x =>
    simp only [exec, execLoadRegs, Instr.fault]
    cases s.outOfBounds s.base (x.toNat + 1) <;> rfl
  | ldB x =>
    have len : (bcd (s.reg x)).length = 3 := rfl
    simp only [exec, execLdB, storeAtI, Instr.fault, len]
    cases s.outOfBounds s.base 3 <;> rfl
  | storeRegs x =>
    simp only [exec, execStoreRegs, storeAtI, Instr.fault, State.regsUpTo_length]
    cases s.outOfBounds s.base (x.toNat + 1) <;> rfl
  | ldVxK x =>
    simp only [exec, execLdVxK, Instr.fault, Instr.effect, Instr.outcome]
    cases s.lowestKey <;> rfl
  | _ => rfl

/-- An instruction that raises a fault enters it (R236). -/
theorem exec_of_fault {c : Fault} {a : Nat} (h : i.fault s = some (c, a)) :
    exec i s = .next (s.takeFault c a (encode i)) := by
  rw [exec_eq, h]; rfl

/-- An instruction that raises no fault has its effect and ends its cycle (R125 to R128). -/
theorem exec_of_no_fault (h : i.fault s = none) :
    exec i s = .next ((i.effect s).finish (i.outcome s)) := by
  rw [exec_eq, h]; rfl

/-! What `effectOf` leaves as it was. -/

theorem State.effectOf.pc (h : s.effectOf t) : t.pc = s.pc := by rw [State.effectOf] at h; rw [h]
theorem State.effectOf.faultCause (h : s.effectOf t) : t.faultCause = s.faultCause := by
  rw [State.effectOf] at h; rw [h]
theorem State.effectOf.faultAddr (h : s.effectOf t) : t.faultAddr = s.faultAddr := by
  rw [State.effectOf] at h; rw [h]
theorem State.effectOf.faultInstr (h : s.effectOf t) : t.faultInstr = s.faultInstr := by
  rw [State.effectOf] at h; rw [h]

/-- The effect touches none of PC, K, MODE, the fault registers, the counters and the parameters. -/
theorem effectOf_effect (i : Instr) (s : State) : s.effectOf (i.effect s) := by
  cases i with
  | loadRegs x => simp only [Instr.effect]; rw [State.loadFrom_eq]; rfl
  | ldVxK x => cases h : s.lowestKey <;> simp only [Instr.effect, h] <;> rfl
  | _ => rfl

@[simp] theorem effect_pc : (i.effect s).pc = s.pc := (effectOf_effect i s).pc
@[simp] theorem effect_faultCause : (i.effect s).faultCause = s.faultCause := (effectOf_effect i s).faultCause
@[simp] theorem effect_faultAddr : (i.effect s).faultAddr = s.faultAddr := (effectOf_effect i s).faultAddr
@[simp] theorem effect_faultInstr : (i.effect s).faultInstr = s.faultInstr := (effectOf_effect i s).faultInstr

/-- The four ways a Cycle operation can end (R122, R123, R124, R233, R236). -/
inductive StepEnds (s : State) : State → Prop
  /-- An idle cycle in Halted or Faulted (R122). -/
  | idle (h : s.mode.stopped = true) : StepEnds s s
  /-- A faulting cycle, at the fetch or in the instruction (R236). -/
  | faulted (c : Fault) (a : Nat) (w : Word) (h : s.mode.stopped = false) : StepEnds s (s.takeFault c a w)
  /-- The counted no-op of an unrecognized word (R233). -/
  | unrecognized (e : Unrecognized) (h : s.mode.stopped = false) (hd : decode s.fetchWord = .error e) :
      StepEnds s s.decodeFailure
  /-- The decoded instruction, completed (R125 to R128). -/
  | completed (i : Instr) (h : s.mode.stopped = false) (hd : decode s.fetchWord = .ok i)
      (hf : i.fault s = none) : StepEnds s ((i.effect s).finish (i.outcome s))

/-- Every step ends in one of the four ways. -/
theorem stepEnds_of_step (h : step s = .next t) : StepEnds s t := by
  cases hm : s.mode.stopped with
  | true => cases (step_stopped s hm).symm.trans h; exact .idle hm
  | false =>
    rcases step_cases s hm with ⟨a, -, hs⟩ | ⟨-, ⟨e, hd⟩, hs⟩ | ⟨i, u, -, hd, hi, hs⟩
    · cases hs.symm.trans h; exact .faulted _ _ _ hm
    · cases hs.symm.trans h; exact .unrecognized e hm hd
    · cases hs.symm.trans h
      cases hf : i.fault s with
      | some f => cases (exec_of_fault hf).symm.trans hi; exact .faulted _ _ _ hm
      | none => cases (exec_of_no_fault hf).symm.trans hi; exact .completed i hm hd hf

end Sys2Proof.Machine
end

section
/-! PROOFS. The machine's invariant (R25, R29, R43, R60): PowerOn sets it up and every step keeps it. -/
namespace Sys2Proof.Machine

variable {i : Instr} {s t : State}

/-- A block store inside Memory keeps the shape (R60, R65). -/
theorem State.shaped_store (hs : s.shaped) {a : Nat} {bytes : List Byte}
    (hb : a + bytes.length ≤ s.params.memSize) : (s.store a bytes).shaped := by
  obtain ⟨hp, hwf, hbelow, hrest⟩ := hs
  exact ⟨hp, Memory.wf_writeBytes hwf a bytes, Memory.writeBytes_below hbelow a bytes hb, hrest⟩

/-- A framebuffer of the parameters' size keeps the shape (R34). -/
theorem State.shaped_setFb (hs : s.shaped) {fb : Framebuffer}
    (hfb : fb.hasSize s.params.dispH s.params.dispW) : (s.setFb fb).shaped := by
  obtain ⟨hp, hwf, hbelow, hstack, -⟩ := hs
  exact ⟨hp, hwf, hbelow, hstack, hfb⟩

/-- A push keeps the number of stack entries (R30). -/
theorem State.shaped_push (hs : s.shaped) (w : Word) : (s.push w).shaped := by
  obtain ⟨hp, hwf, hbelow, hstack, hfb⟩ := hs
  exact ⟨hp, hwf, hbelow, by simpa using hstack, hfb⟩

/-- An access check that raised nothing leaves the whole block inside Memory (R65). -/
theorem State.block_in_memory {a n : Nat} {c : Fault}
    (h : (s.outOfBounds a n).map (fun b => (c, b)) = none) (hn : 0 < n) : a + n ≤ s.params.memSize := by
  have := (s.outOfBounds_eq_none a n).mp (Option.map_eq_none_iff.mp h)
  omega

/-- An effect without a fault keeps the storages' sizes and Memory's canonical form (R43, R60). -/
theorem shaped_effect (hs : s.shaped) (hf : i.fault s = none) : (i.effect s).shaped := by
  cases i with
  | cls => exact State.shaped_setFb hs (Framebuffer.hasSize_clear s.params)
  | drw x y n =>
    obtain ⟨-, -, -, -, hfb⟩ := id hs
    exact State.shaped_setFb hs (s.afterSprite_hasSize x y n hfb)
  | call nnn => exact State.shaped_push hs _
  | ldB x => exact State.shaped_store hs (State.block_in_memory (n := 3) hf (by decide))
  | storeRegs x =>
    refine State.shaped_store hs ?_
    rw [State.regsUpTo_length]
    exact State.block_in_memory hf (by omega)
  | loadRegs x => simp only [Instr.effect]; rw [State.loadFrom_eq]; exact hs
  | ldVxK x => cases h : s.lowestKey <;> simp only [Instr.effect, h] <;> exact hs
  | _ => exact hs

/-- An effect without a fault keeps SP in 0 to STACK_DEPTH: CALL checks for a full stack and RET for an
empty one (R25, R31, R32). -/
theorem spInRange_effect (hs : s.spInRange) (hf : i.fault s = none) : (i.effect s).spInRange := by
  cases i with
  | ret =>
    have hne : s.sp ≠ 0 := by simpa [Instr.fault] using hf
    simp only [Instr.effect, State.spInRange, State.pop_sp, State.pop_params] at hs ⊢
    bv_omega
  | call nnn =>
    have hne : s.sp.toNat ≠ s.params.stackDepth := by simpa [Instr.fault] using hf
    simp only [Instr.effect, State.spInRange, State.push_sp, State.push_params] at hs ⊢
    bv_omega
  | loadRegs x => simp only [Instr.effect]; rw [State.loadFrom_eq]; exact hs
  | ldVxK x => cases h : s.lowestKey <;> simp only [Instr.effect, h] <;> exact hs
  | _ => exact hs

/-- A machine that is not stopped holds no cause (R29). -/
theorem State.faultCause_of_not_stopped (h : s.faultRegsAgree) (hm : s.mode.stopped = false) :
    s.faultCause = 0 := by
  by_contra hc
  rw [h.2.1.mpr hc] at hm
  cases hm

/-- Fault entry writes a cause of R231 together with MODE (R236). -/
theorem State.faultRegsAgree_takeFault (s : State) (c : Fault) (a : Nat) (w : Word) :
    (s.takeFault c a w).faultRegsAgree := by
  obtain ⟨hpos, hle⟩ := c.code_range
  have hne : c.code ≠ 0 := by rintro h; rw [h] at hpos; cases hpos
  exact ⟨hle, by simpa using hne, fun h => absurd h hne⟩

/-- A state outside Faulted with clear fault registers agrees with R29. -/
theorem State.faultRegsAgree_clear (hm : t.mode ≠ .faulted) (hc : t.faultCause = 0)
    (hr : t.faultAddr = 0 ∧ t.faultInstr = 0) : t.faultRegsAgree :=
  ⟨by rw [hc]; decide, by simp [hm, hc], fun _ => hr⟩

/-- The end of a completing cycle keeps the invariant: it touches no storage, and MODE and the fault
registers stay out of Faulted (R127). -/
theorem inv_completed (hs : s.inv) (hm : s.mode.stopped = false) (hf : i.fault s = none) :
    ((i.effect s).finish (i.outcome s)).inv := by
  obtain ⟨hshape, hsp, hregs⟩ := hs
  have hc := State.faultCause_of_not_stopped hregs hm
  refine ⟨shaped_effect hshape hf, spInRange_effect hsp hf, State.faultRegsAgree_clear ?_ ?_ ?_⟩
  · exact modeAfter_ne_faulted (i.outcome s)
  · simpa using hc
  · simpa using hregs.2.2 hc

/-- Settles O16: each of the four ends of a cycle keeps the invariant. -/
theorem stepKeepsTheInvariant : Obligations.StepKeepsTheInvariant := by
  intro s t hs h
  obtain ⟨hshape, hsp, hregs⟩ := id hs
  cases stepEnds_of_step h with
  | idle => exact hs
  | faulted c a w => exact ⟨hshape, hsp, s.faultRegsAgree_takeFault c a w⟩
  | unrecognized e hm =>
    have hc := State.faultCause_of_not_stopped hregs hm
    exact ⟨hshape, hsp, State.faultRegsAgree_clear (by simp) hc (hregs.2.2 hc)⟩
  | completed i hm hd hf => exact inv_completed hs hm hf

/-- PowerOn with legal parameters sets the invariant up (R40, R270). -/
theorem inv_afterPowerOn {p : Params} (hp : p.legal) : (State.afterPowerOn p).inv :=
  ⟨⟨hp, ⟨.nil, by simp⟩, by simp, by simp, Framebuffer.hasSize_clear p⟩, by simp [State.spInRange],
    State.faultRegsAgree_clear (by simp) rfl ⟨rfl, rfl⟩⟩

/-- Settles O17: the defaults of R5 are legal parameters. -/
theorem resetMeetsTheInvariant : Obligations.ResetMeetsTheInvariant :=
  inv_afterPowerOn (p := defaultParams) (by decide)

/-- The font table stands at FONT_BASE in a Memory nothing has written (R40, R68). -/
theorem unlistedByte_font (j : Nat) : unlistedByte (fontBase + j) = font.getD j 0 := by
  simp [unlistedByte]

/-- Every other byte nothing has written is 0 (R40). -/
theorem unlistedByte_outside_font {a : Nat} (h : a < 0x050 ∨ 0x0A0 ≤ a) : unlistedByte a = 0 := by
  have hlen : font.length = 80 := by decide
  unfold unlistedByte fontBase
  split
  · rfl
  · rw [List.getD_eq_getElem?_getD, List.getElem?_eq_none (by omega)]; rfl

/-- Settles O15: the registers and storages are PowerOn's by definition, and no byte of Memory has been
written. -/
theorem resetValues : Obligations.ResetValues := by
  refine ⟨rfl, fun x => ?_, rfl, rfl, rfl, rfl, rfl, rfl, fun k => ?_, rfl, rfl, rfl, rfl, rfl, rfl, rfl,
    fun j _ => unlistedByte_font j, fun a ha => unlistedByte_outside_font ha⟩
  · simp [State.reg, State.reset]
  · simp [State.key, State.reset]

end Sys2Proof.Machine
end

section
/-! PROOFS. How each cycle leaves PC (R23), and RET (R32). -/
namespace Sys2Proof.Machine

variable {i : Instr} {s t : State}

/-- Only `Next` and `Goto` move PC, and both end in Running (R126, R127). -/
theorem pcAfter_of_not_running {k : OutcomeKind} (h : modeAfter k ≠ .running) (pc : Word) :
    pcAfter k pc = pc := by
  cases k with
  | next | goto t => exact absurd rfl h
  | wait | halt => rfl

/-- PC moves on by an instruction's two bytes, modulo 2^16 (R23). -/
theorem toNat_pc_add_two (pc : Word) : (pc + 2).toNat = (pc.toNat + 2) % 65536 := by
  simp [BitVec.toNat_add]

/-- A skip's outcome leaves PC as R23 says. -/
theorem State.toNat_pcAfter_skipIf (s : State) (cond : Bool) :
    (pcAfter (s.skipIf cond) s.pc).toNat = s.pcSkip cond := by
  cases cond <;> simp [State.skipIf, pcAfter, State.pcSkip, BitVec.toNat_add]

/-- The zero-extended immediate is `nnn` (R93). -/
theorem toNat_zext16 (nnn : Imm12) : (zext16 nnn).toNat = nnn.toNat := by
  simp only [zext16, BitVec.toNat_setWidth]
  exact Nat.mod_eq_of_lt (by omega)

/-- V0 + nnn never reaches 2^16 (R145). -/
theorem State.toNat_jumpV0Target (s : State) (nnn : Imm12) :
    (s.jumpV0Target nnn).toNat = (s.reg 0x0#4).toNat + nnn.toNat := by
  simp only [State.jumpV0Target, BitVec.toNat_ofNat]
  exact Nat.mod_eq_of_lt (by omega)

/-- The key a register selects is its value modulo 16 (R210). -/
theorem State.keyNumber_eq_ofNat (s : State) (x : Nibble) :
    s.keyNumber x = BitVec.ofNat 4 ((s.reg x).toNat % 16) := by
  apply BitVec.eq_of_toNat_eq
  simp [State.keyNumber]

/-- An outcome that ends in Running leaves PC as R23's table says. -/
theorem toNat_pcAfter_outcome (h : modeAfter (i.outcome s) = .running) :
    (pcAfter (i.outcome s) s.pc).toNat = s.pcByTable (.ok i) := by
  cases i with
  | ret => rfl
  | halt kk => cases h
  | jp nnn | call nnn => exact toNat_zext16 nnn
  | jpV0 nnn => exact s.toNat_jumpV0Target nnn
  | seImm x nn | seReg x y => exact s.toNat_pcAfter_skipIf _
  | sneImm x nn | sneReg x y =>
    simp only [State.pcByTable, decide_not]
    exact s.toNat_pcAfter_skipIf _
  | skp x | sknp x =>
    simp only [State.pcByTable, ← s.keyNumber_eq_ofNat x]
    exact s.toNat_pcAfter_skipIf _
  | ldVxK x =>
    cases hk : s.lowestKey with
    | none => simp [Instr.outcome, hk, modeAfter] at h
    | some k =>
      simp only [Instr.outcome, hk]
      exact toNat_pc_add_two s.pc
  | _ => exact toNat_pc_add_two s.pc

/-- Settles O13: idle and faulting cycles keep PC, an unrecognized word moves it on by 2, and a completed
instruction follows its outcome kind. -/
theorem howEachCycleLeavesPc : Obligations.HowEachCycleLeavesPc := by
  intro s t h
  cases stepEnds_of_step h with
  | idle hm =>
    refine ⟨fun _ => rfl, fun hl _ => ?_⟩
    rw [(Mode.stopped_eq_false s.mode).mpr hl] at hm
    cases hm
  | faulted c a w => exact ⟨fun _ => rfl, fun _ hr => by cases hr⟩
  | unrecognized e hm hd =>
    refine ⟨fun hr => absurd rfl hr, fun _ _ => ?_⟩
    rw [hd]
    exact toNat_pc_add_two s.pc
  | completed i hm hd hf =>
    simp only [State.finish_pc, State.finish_mode, effect_pc, hd]
    exact ⟨fun hr => pcAfter_of_not_running hr s.pc, fun _ hr => toNat_pcAfter_outcome hr⟩

/-- Settles O29: RET's check is the only thing that separates its two ends. -/
theorem returnPopsThePc : Obligations.ReturnPopsThePc := by
  refine ⟨by decide, fun s => ⟨fun hsp => ?_, fun hsp => ?_⟩⟩
  · have hpop : s.sp - 1 = BitVec.ofNat 8 (s.sp.toNat - 1) := by bv_omega
    rw [← hpop]
    exact exec_of_no_fault (i := .ret) (if_neg hsp)
  · have haddr : BitVec.ofNat 17 s.sp.toNat = 0 := by rw [hsp]; rfl
    rw [← haddr]
    exact exec_of_fault (i := .ret) (if_pos hsp)

end Sys2Proof.Machine
end

section
/-! PROOFS. Who writes what, over all cycles (R20, R21, R24 to R27, R30, R34, R38, R70). -/
namespace Sys2Proof.Machine

variable {i : Instr} {s t : State}

/-- The elements only an instruction's own effect writes. The end of a cycle, fault entry and the no-op
of an unrecognized word leave them alone (R125 to R128, R233, R236). -/
structure State.SameData (s t : State) : Prop where
  v : t.v = s.v
  i : t.i = s.i
  sp : t.sp = s.sp
  dt : t.dt = s.dt
  st : t.st = s.st
  stack : t.stack = s.stack
  fb : t.fb = s.fb
  mem : t.mem = s.mem

theorem State.SameData.reg (h : s.SameData t) (z : Nibble) : t.reg z = s.reg z := by
  simp only [State.reg, h.v]

/-- A step leaves the data as they were, or as the effect of the decoded instruction left them. -/
theorem sameData_of_step (h : step s = .next t) :
    s.SameData t ∨ ∃ i, decode s.fetchWord = .ok i ∧ (i.effect s).SameData t := by
  cases stepEnds_of_step h with
  | idle | faulted | unrecognized => exact .inl ⟨rfl, rfl, rfl, rfl, rfl, rfl, rfl, rfl⟩
  | completed i _ hd => exact .inr ⟨i, hd, rfl, rfl, rfl, rfl, rfl, rfl, rfl, rfl⟩

/-- The instructions whose effect alone writes I, SP, DT, ST, Stack, FB and Memory. -/
theorem effect_writes (i : Instr) (s : State) :
    ((i.effect s).i ≠ s.i → (∃ nnn, i = .ldI nnn) ∨ (∃ x, i = .addI x) ∨ ∃ x, i = .ldF x) ∧
    ((i.effect s).sp ≠ s.sp → i = .ret ∨ ∃ nnn, i = .call nnn) ∧
    ((i.effect s).dt ≠ s.dt → ∃ x, i = .ldDtVx x) ∧
    ((i.effect s).st ≠ s.st → ∃ x, i = .ldStVx x) ∧
    ((i.effect s).stack ≠ s.stack → ∃ nnn, i = .call nnn) ∧
    ((i.effect s).fb ≠ s.fb → i = .cls ∨ ∃ x y n, i = .drw x y n) ∧
    ((i.effect s).mem ≠ s.mem → (∃ x, i = .ldB x) ∨ ∃ x, i = .storeRegs x) := by
  cases i with
  | loadRegs x => simp only [Instr.effect]; rw [State.loadFrom_eq]; simp
  | ldVxK x => cases h : s.lowestKey <;> simp [Instr.effect, h]
  | _ => simp [Instr.effect]

/-- Settles O57: whatever changed was written by the effect of the decoded instruction. -/
theorem whoWritesTheSpecialRegistersAndStorages :
    Obligations.WhoWritesTheSpecialRegistersAndStorages := by
  intro s t h
  rcases sameData_of_step h with same | ⟨i, hd, same⟩
  · simp [same.i, same.sp, same.dt, same.st, same.stack, same.fb, same.mem]
  · simp only [same.i, same.sp, same.dt, same.st, same.stack, same.fb, same.mem, hd, Except.ok.injEq]
    exact effect_writes i s

/-- An effect leaves every register it may not write as it was (R140). -/
theorem reg_effect {z : Nibble} (h : ¬ i.mayWriteReg z) : (i.effect s).reg z = s.reg z := by
  cases i with
  | loadRegs x =>
    have hx : ¬ z.toNat ≤ x.toNat := h
    simp only [Instr.effect]
    rw [State.reg_loadFrom s _ _ z (by omega), if_neg (by omega)]
  | ldVxK x =>
    cases hk : s.lowestKey with
    | none => simp [Instr.effect, hk]
    | some k =>
      have hx : z ≠ x := h
      simp [Instr.effect, hk, hx]
  | ldImm x _ | addImm x _ | rnd x _ | ldReg x _ | orReg x _ | andReg x _ | xorReg x _ | ldVxDt x =>
    have hx : z ≠ x := h
    simp [Instr.effect, hx]
  | addReg x _ | subReg x _ | shr x _ | subnReg x _ | shl x _ =>
    obtain ⟨hf, hx⟩ := not_or.mp h
    simp [Instr.effect, hf, hx]
  | drw x y n =>
    have hf : z ≠ 0xF#4 := h
    simp [Instr.effect, hf]
  | _ => rfl

/-- A register a step changed is one that the decoded instruction may write. -/
theorem mayWriteReg_of_step {z : Nibble} (h : step s = .next t) (hne : t.reg z ≠ s.reg z) :
    ∃ i, decode s.fetchWord = .ok i ∧ i.mayWriteReg z := by
  rcases sameData_of_step h with same | ⟨i, hd, same⟩
  · exact absurd (same.reg z) hne
  · refine ⟨i, hd, ?_⟩
    by_contra hw
    exact hne ((same.reg z).trans (reg_effect hw))

/-- Settles O58: VF is the flag of the arithmetic instructions and of DRW, and a destination like any
other register. -/
theorem whoWritesVF : Obligations.WhoWritesVF := by
  intro s t h hne
  obtain ⟨i, hd, hw⟩ := mayWriteReg_of_step h hne
  refine ⟨i, hd, ?_⟩
  cases i with
  | loadRegs x =>
    have hx : (0xF#4).toNat ≤ x.toNat := hw
    have : x = 0xF#4 := by bv_omega
    simp [this]
  | addReg | subReg | shr | subnReg | shl | drw => simp
  | ldImm x _ | addImm x _ | rnd x _ | ldReg x _ | orReg x _ | andReg x _ | xorReg x _ | ldVxDt x | ldVxK x =>
    obtain rfl : 0xF#4 = x := hw
    simp
  | _ => exact hw.elim

/-- Settles O59: apart from VF, a register is written as a destination or in the block LD Vx, [I] loads. -/
theorem whoWritesAGeneralRegister : Obligations.WhoWritesAGeneralRegister := by
  intro s t z h hz hne
  obtain ⟨i, hd, hw⟩ := mayWriteReg_of_step h hne
  refine ⟨i, hd, ?_⟩
  cases i with
  | loadRegs x =>
    have hx : z.toNat ≤ x.toNat := hw
    simp [hx]
  | addReg x _ | subReg x _ | shr x _ | subnReg x _ | shl x _ =>
    obtain rfl : z = x := hw.resolve_left hz
    simp
  | drw => exact absurd hw hz
  | ldImm x _ | addImm x _ | rnd x _ | ldReg x _ | orReg x _ | andReg x _ | xorReg x _ | ldVxDt x | ldVxK x =>
    obtain rfl : z = x := hw
    simp
  | _ => exact hw.elim

end Sys2Proof.Machine
end

section
/-! PROOFS. Memory as the program's own store: the fetch fault at its end (R66, R231), and fetching what
LD [I], Vx has just stored (R67, R74). -/
namespace Sys2Proof.Machine

variable {s : State}

/-- The fetch's check reports PC if PC is itself outside Memory, and PC + 1 otherwise (R66, R231). -/
theorem State.outOfBounds_fetch (h : s.params.memSize ≤ s.pc.toNat + 1) :
    s.outOfBounds s.pc.toNat 2 =
      some (if s.params.memSize ≤ s.pc.toNat then s.pc.toNat else s.pc.toNat + 1) := by
  rw [State.outOfBounds_eq_some]
  split
  · exact ⟨by omega, fun c _ _ _ => by omega⟩
  · exact ⟨by omega, fun c _ _ _ => by omega⟩

/-- A fetch whose check reports an address enters OOB_FETCH there, with instruction word 0 (R123, R236). -/
theorem cycle_of_fetch_outOfBounds (hm : s.mode.stopped = false) {a : Nat}
    (hb : s.outOfBounds s.pc.toNat 2 = some a) :
    cycle s = .next (s.takeFault .oobFetch a 0, ⟨false, .fault, 0⟩) := by
  have hout : ¬ s.fetchInBounds := by simp [← s.fetch_none, hb]
  rcases cycle_cases s hm with ⟨b, hb', hc⟩ | ⟨hin, -⟩ | ⟨i, t, hin, -⟩
  · cases hb.symm.trans hb'
    exact hc
  · exact absurd hin hout
  · exact absurd hin hout

/-- Settles O8: the fetch's check reports the smaller address outside Memory, and fault entry writes MODE
and the fault registers alone. -/
theorem fetchOutsideMemoryFaults : Obligations.FetchOutsideMemoryFaults := by
  intro s hl h
  exact cycle_of_fetch_outOfBounds ((Mode.stopped_eq_false s.mode).mpr hl) (State.outOfBounds_fetch h)

/-- After LD [I], Vx has stored its block at `a`, byte `j` of the block reads V[j] (R184, R72). -/
theorem State.read_store_regsUpTo (s : State) (a : Nat) {x j : Nibble} (hj : j.toNat ≤ x.toNat) :
    (s.store a (s.regsUpTo x)).mem.read (a + j.toNat) = s.reg j := by
  rw [State.store_mem, Memory.read_writeBytes, if_pos (Nat.le_add_right a j.toNat),
    Nat.add_sub_cancel_left, State.regsUpTo_getElem s x j.toNat hj, BitVec.ofNat_toNat,
    BitVec.setWidth_eq, Option.getD_some]

/-- LD [I], Vx completes when its whole block is in Memory (R65, R184). -/
theorem exec_storeRegs_of_in_memory {x : Nibble} (h : s.i.toNat + x.toNat < s.params.memSize) :
    exec (.storeRegs x) s = .next ((s.store s.base (s.regsUpTo x)).finish .next) := by
  have hin : s.outOfBounds s.base (x.toNat + 1) = none :=
    (s.outOfBounds_eq_none _ _).mpr (.inr h)
  exact exec_of_no_fault (i := .storeRegs x) (Option.map_eq_none_iff.mpr hin)

/-- After a `Next` outcome the word at PC is the one two bytes further on (R67, R126). -/
theorem State.fetchWord_finish_next (s : State) :
    (s.finish .next).fetchWord =
      wordOfBytes (s.mem.read (s.pc + 2).toNat) (s.mem.read ((s.pc + 2).toNat + 1)) := rfl

/-- Settles O60: the two addresses the next fetch reads are those of bytes `k` and `k + 1` of the block. -/
theorem storedBytesAreFetched : Obligations.StoredBytesAreFetched := by
  intro s x k hin hk hpc
  have hsucc : (k + 1).toNat = k.toNat + 1 := by bv_omega
  have hhigh : (s.pc + 2).toNat = s.base + k.toNat := hpc
  have hlow : (s.pc + 2).toNat + 1 = s.base + (k + 1).toNat := by omega
  refine ⟨_, exec_storeRegs_of_in_memory hin, ?_⟩
  rw [State.fetchWord_finish_next, State.store_pc, hlow, hhigh,
    State.read_store_regsUpTo s s.base (j := k) (by omega),
    State.read_store_regsUpTo s s.base (j := k + 1) (by omega)]

end Sys2Proof.Machine
end

section
/-! PROOFS. The encoding (R90 to R105): decoding and encoding undo each other, a word is decoded to the
row of R95 it matches, and the words of R100 are the ones refused. -/
namespace Sys2Proof

variable {w : Word} {i j : Instr}

/-! ### The round trips (R94, R95) -/

/-- Settles O1: the formats' fields are read back as they were put in, and HALT is told apart from CLS and
RET by the low byte that well-formedness excludes. -/
theorem decodeOfEncode : Obligations.DecodeOfEncode := by
  intro i hi
  cases i with
  | cls | ret => rfl
  | halt kk =>
    obtain ⟨hcls, hret⟩ : kk ≠ 0xE0#8 ∧ kk ≠ 0xEE#8 := by simpa [Instr.wellFormed] using hi
    simp [encode, decode, decodeGroup0, hcls, hret]
  | jp | call | ldI | jpV0 => simp [encode, decode]
  | seImm | sneImm | ldImm | addImm | rnd => simp [encode, decode]
  | drw => simp [encode, decode]
  | seReg => simp [encode, decode, decodeGroup5]
  | sneReg => simp [encode, decode, decodeGroup9]
  | ldReg | orReg | andReg | xorReg | addReg | subReg | shr | subnReg | shl =>
    simp [encode, decode, decodeGroup8]
  | skp | sknp => simp [encode, decode, decodeGroupE]
  | ldVxDt | ldVxK | ldDtVx | ldStVx | addI | ldF | ldB | storeRegs | loadRegs =>
    simp [encode, decode, decodeGroupF]

/-- The instruction is well formed and `w` is its word. -/
def Instr.HasWord (i : Instr) (w : Word) : Prop := i.wellFormed = true ∧ encode i = w

/-- What group 0 accepts is CLS, RET or a well-formed HALT (R97, R98). -/
theorem hasWord_of_decodeGroup0 (hop : fieldOp w = 0x0#4) (h : decodeGroup0 w = .ok i) : i.HasWord w := by
  unfold decodeGroup0 at h
  split_ifs at h with hx hcls hret <;> cases h
  · exact ⟨rfl, eq_wordSys hop (not_not.mp hx) hcls⟩
  · exact ⟨rfl, eq_wordSys hop (not_not.mp hx) hret⟩
  · exact ⟨by simp [Instr.wellFormed, hcls, hret], eq_wordSys hop (not_not.mp hx) rfl⟩

/-- What group 5 accepts (R105). -/
theorem hasWord_of_decodeGroup5 (hop : fieldOp w = 0x5#4) (h : decodeGroup5 w = .ok i) : i.HasWord w := by
  unfold decodeGroup5 at h
  split at h
  next hn => cases h; exact ⟨rfl, eq_wordXy hop hn⟩
  · cases h

/-- What group 8 accepts (R96). -/
theorem hasWord_of_decodeGroup8 (hop : fieldOp w = 0x8#4) (h : decodeGroup8 w = .ok i) : i.HasWord w := by
  unfold decodeGroup8 at h
  split at h <;> cases h <;> exact ⟨rfl, eq_wordXy hop ‹_›⟩

/-- What group 9 accepts (R105). -/
theorem hasWord_of_decodeGroup9 (hop : fieldOp w = 0x9#4) (h : decodeGroup9 w = .ok i) : i.HasWord w := by
  unfold decodeGroup9 at h
  split at h
  next hn => cases h; exact ⟨rfl, eq_wordXy hop hn⟩
  · cases h

/-- What group E accepts (R99). -/
theorem hasWord_of_decodeGroupE (hop : fieldOp w = 0xE#4) (h : decodeGroupE w = .ok i) : i.HasWord w := by
  unfold decodeGroupE at h
  split at h <;> cases h <;> exact ⟨rfl, eq_wordXkk hop ‹_›⟩

/-- What group F accepts (R99). -/
theorem hasWord_of_decodeGroupF (hop : fieldOp w = 0xF#4) (h : decodeGroupF w = .ok i) : i.HasWord w := by
  unfold decodeGroupF at h
  split at h <;> cases h <;> exact ⟨rfl, eq_wordXkk hop ‹_›⟩

/-- Settles O2: every arm of the decoder copies the fields its format has out of the word, and the other
bits are the ones it has tested. -/
theorem encodeOfDecode : Obligations.EncodeOfDecode := by
  intro w i h
  unfold decode at h
  split at h
  case h_1 hop => exact hasWord_of_decodeGroup0 hop h
  case h_6 hop => exact hasWord_of_decodeGroup5 hop h
  case h_9 hop => exact hasWord_of_decodeGroup8 hop h
  case h_10 hop => exact hasWord_of_decodeGroup9 hop h
  case h_15 hop => exact hasWord_of_decodeGroupE hop h
  case h_16 =>
    have hop : fieldOp w = 0xF#4 := by
      simp only [imp_false] at *
      bv_omega
    exact hasWord_of_decodeGroupF hop h
  case h_2 hop | h_3 hop | h_11 hop | h_12 hop => cases h; exact ⟨rfl, eq_wordNnn hop⟩
  case h_14 hop => cases h; exact ⟨rfl, eq_wordXyn hop⟩
  case h_4 hop | h_5 hop | h_7 hop | h_8 hop | h_13 hop => cases h; exact ⟨rfl, eq_wordXnn hop⟩

/-! ### The opcode map (R95) -/

/-- The mask of the row whose match value is `m`: the second level of decoding is chosen by the primary
opcode, and group 0 tells HALT from its two fixed words (R94, R96 to R99). -/
def maskOfMatch (m : Word) : Word :=
  match fieldOp m with
  | 0x0#4 => if m = 0x0000 then 0xFF00 else 0xFFFF
  | 0x5#4 | 0x8#4 | 0x9#4 => 0xF00F
  | 0xE#4 | 0xF#4 => 0xF0FF
  | _ => 0xF000

theorem maskOfMatch_rowMatch (i : Instr) : maskOfMatch (rowMatch i) = rowMask i := by
  cases i <;> simp only [rowMatch, rowMask] <;> rfl

/-- Rows with one match value are one row, so they have one mask. -/
theorem rowMask_eq_of_rowMatch_eq (h : rowMatch j = rowMatch i) : rowMask j = rowMask i := by
  rw [← maskOfMatch_rowMatch, h, maskOfMatch_rowMatch]

open Laws in
/-- The family TableRow, over all instructions. -/
theorem encode_and_rowMask : ∀ i, encode i &&& rowMask i = rowMatch i
  | .cls => TableRow.cls | .ret => TableRow.ret | .halt kk => TableRow.halt kk
  | .jp nnn => TableRow.jp nnn | .call nnn => TableRow.call nnn
  | .ldI nnn => TableRow.ldI nnn | .jpV0 nnn => TableRow.jpV0 nnn
  | .seImm x nn => TableRow.seImm x nn | .sneImm x nn => TableRow.sneImm x nn
  | .ldImm x nn => TableRow.ldImm x nn | .addImm x nn => TableRow.addImm x nn
  | .rnd x nn => TableRow.rnd x nn | .drw x y n => TableRow.drw x y n
  | .seReg x y => TableRow.seReg x y | .sneReg x y => TableRow.sneReg x y
  | .ldReg x y => TableRow.ldReg x y | .orReg x y => TableRow.orReg x y
  | .andReg x y => TableRow.andReg x y | .xorReg x y => TableRow.xorReg x y
  | .addReg x y => TableRow.addReg x y | .subReg x y => TableRow.subReg x y
  | .shr x y => TableRow.shr x y | .subnReg x y => TableRow.subnReg x y | .shl x y => TableRow.shl x y
  | .skp x => TableRow.skp x | .sknp x => TableRow.sknp x
  | .ldVxDt x => TableRow.ldVxDt x | .ldVxK x => TableRow.ldVxK x
  | .ldDtVx x => TableRow.ldDtVx x | .ldStVx x => TableRow.ldStVx x
  | .addI x => TableRow.addI x | .ldF x => TableRow.ldF x | .ldB x => TableRow.ldB x
  | .storeRegs x => TableRow.storeRegs x | .loadRegs x => TableRow.loadRegs x

/-- The instruction of the row of `i` whose fields are those of the word `w`. -/
def Instr.readAs (i : Instr) (w : Word) : Instr :=
  match i with
  | .cls => .cls | .ret => .ret | .halt _ => .halt (fieldNn w)
  | .jp _ => .jp (fieldNnn w) | .call _ => .call (fieldNnn w)
  | .ldI _ => .ldI (fieldNnn w) | .jpV0 _ => .jpV0 (fieldNnn w)
  | .seImm _ _ => .seImm (fieldX w) (fieldNn w) | .sneImm _ _ => .sneImm (fieldX w) (fieldNn w)
  | .ldImm _ _ => .ldImm (fieldX w) (fieldNn w) | .addImm _ _ => .addImm (fieldX w) (fieldNn w)
  | .rnd _ _ => .rnd (fieldX w) (fieldNn w) | .drw _ _ _ => .drw (fieldX w) (fieldY w) (fieldN w)
  | .seReg _ _ => .seReg (fieldX w) (fieldY w) | .sneReg _ _ => .sneReg (fieldX w) (fieldY w)
  | .ldReg _ _ => .ldReg (fieldX w) (fieldY w) | .orReg _ _ => .orReg (fieldX w) (fieldY w)
  | .andReg _ _ => .andReg (fieldX w) (fieldY w) | .xorReg _ _ => .xorReg (fieldX w) (fieldY w)
  | .addReg _ _ => .addReg (fieldX w) (fieldY w) | .subReg _ _ => .subReg (fieldX w) (fieldY w)
  | .shr _ _ => .shr (fieldX w) (fieldY w) | .subnReg _ _ => .subnReg (fieldX w) (fieldY w)
  | .shl _ _ => .shl (fieldX w) (fieldY w)
  | .skp _ => .skp (fieldX w) | .sknp _ => .sknp (fieldX w)
  | .ldVxDt _ => .ldVxDt (fieldX w) | .ldVxK _ => .ldVxK (fieldX w)
  | .ldDtVx _ => .ldDtVx (fieldX w) | .ldStVx _ => .ldStVx (fieldX w)
  | .addI _ => .addI (fieldX w) | .ldF _ => .ldF (fieldX w) | .ldB _ => .ldB (fieldX w)
  | .storeRegs _ => .storeRegs (fieldX w) | .loadRegs _ => .loadRegs (fieldX w)

@[simp] theorem rowMatch_readAs (i : Instr) (w : Word) : rowMatch (i.readAs w) = rowMatch i := by
  cases i <;> rfl

/-- A mask keeps a field it covers with ones. -/
theorem extractLsb'_of_and {m r : Word} {start len : Nat} (h : w &&& m = r)
    (hm : m.extractLsb' start len = BitVec.allOnes len) :
    w.extractLsb' start len = r.extractLsb' start len := by
  rw [← h, BitVec.extractLsb'_and, hm, BitVec.and_allOnes]

/-- A word that matches a row is the word of the row's instruction with the word's own fields. -/
theorem encode_readAs (h : w &&& rowMask i = rowMatch i) : encode (i.readAs w) = w := by
  cases i <;> simp only [rowMask, rowMatch] at h
  case cls | ret => exact h.symm.trans BitVec.and_allOnes
  case halt => exact eq_wordSys (extractLsb'_of_and h rfl) (extractLsb'_of_and h rfl) rfl
  case jp | call | ldI | jpV0 => exact eq_wordNnn (extractLsb'_of_and h rfl)
  case seImm | sneImm | ldImm | addImm | rnd => exact eq_wordXnn (extractLsb'_of_and h rfl)
  case drw => exact eq_wordXyn (extractLsb'_of_and h rfl)
  case seReg | sneReg | ldReg | orReg | andReg | xorReg | addReg | subReg | shr | subnReg | shl =>
    exact eq_wordXy (extractLsb'_of_and h rfl) (extractLsb'_of_and h rfl)
  case skp | sknp | ldVxDt | ldVxK | ldDtVx | ldStVx | addI | ldF | ldB | storeRegs | loadRegs =>
    exact eq_wordXkk (extractLsb'_of_and h rfl) (extractLsb'_of_and h rfl)

/-- Reading a word as an instruction of its row meets the exclusion on the halt row (R95, R98). -/
theorem wellFormed_readAs (h : w &&& rowMask i = rowMatch i)
    (hhalt : rowMatch i = 0x0000 → w ≠ 0x00E0 ∧ w ≠ 0x00EE) : (i.readAs w).wellFormed = true := by
  cases i with
  | halt kk =>
    obtain ⟨hcls, hret⟩ := hhalt rfl
    rw [← encode_readAs h] at hcls hret
    have hE0 : fieldNn w ≠ 0xE0#8 := fun hk => hcls (congrArg (fun k => encode (.halt k)) hk)
    have hEE : fieldNn w ≠ 0xEE#8 := fun hk => hret (congrArg (fun k => encode (.halt k)) hk)
    simp [Instr.readAs, Instr.wellFormed, hE0, hEE]
  | _ => rfl

/-- Settles O3: a decoded word is the word of an instruction of its row; and a word that matches a row is
the word of the row's instruction with the word's fields, which the decoder gives back. -/
theorem opcodeMapSelectsTheRow : Obligations.OpcodeMapSelectsTheRow := by
  intro w i _
  constructor
  · rintro ⟨j, hj, hrow⟩
    obtain ⟨-, henc⟩ := encodeOfDecode w j hj
    refine ⟨?_, fun hhalt => ⟨?_, ?_⟩⟩
    · rw [← rowMask_eq_of_rowMatch_eq hrow, ← hrow, ← henc]
      exact encode_and_rowMask j
    all_goals
      rintro rfl
      cases hj
      exact absurd (hrow.trans hhalt) (by decide)
  · rintro ⟨hmask, hhalt⟩
    refine ⟨i.readAs w, ?_, rowMatch_readAs i w⟩
    have hdec := decodeOfEncode (i.readAs w) (wellFormed_readAs hmask hhalt)
    rwa [encode_readAs hmask] at hdec

/-! ### The unrecognized words (R100) -/

/-- Group 0 refuses a second nibble that is not 0 (R97). -/
theorem decodeGroup0_error_iff (w : Word) : (∃ e, decodeGroup0 w = .error e) ↔ fieldX w ≠ 0x0#4 := by
  unfold decodeGroup0
  split_ifs with hx <;> simpa using hx

/-- Group 5 refuses a low nibble that is not 0 (R105). -/
theorem decodeGroup5_error_iff (w : Word) : (∃ e, decodeGroup5 w = .error e) ↔ fieldN w ≠ 0x0#4 := by
  unfold decodeGroup5
  split <;> simp [*]

/-- Group 9 refuses a low nibble that is not 0 (R105). -/
theorem decodeGroup9_error_iff (w : Word) : (∃ e, decodeGroup9 w = .error e) ↔ fieldN w ≠ 0x0#4 := by
  unfold decodeGroup9
  split <;> simp [*]

/-- Group 8 refuses the seven low nibbles that are no sub-opcode (R96). -/
theorem decodeGroup8_error_iff (w : Word) :
    (∃ e, decodeGroup8 w = .error e) ↔ (fieldN w).toNat ∈ [0x8, 0x9, 0xA, 0xB, 0xC, 0xD, 0xF] := by
  unfold decodeGroup8
  split
  case h_10 =>
    refine iff_of_true ⟨_, rfl⟩ ?_
    simp only [imp_false, List.mem_cons, List.not_mem_nil, or_false] at *
    bv_omega
  all_goals simp [*]

/-- Group E refuses every low byte but its two sub-opcodes (R99). -/
theorem decodeGroupE_error_iff (w : Word) :
    (∃ e, decodeGroupE w = .error e) ↔ (fieldNn w).toNat ∉ [0x9E, 0xA1] := by
  unfold decodeGroupE
  split <;> simp_all [← BitVec.toNat_inj]

/-- Group F refuses every low byte but its nine sub-opcodes (R99). -/
theorem decodeGroupF_error_iff (w : Word) :
    (∃ e, decodeGroupF w = .error e) ↔
      (fieldNn w).toNat ∉ [0x07, 0x0A, 0x15, 0x18, 0x1E, 0x29, 0x33, 0x55, 0x65] := by
  unfold decodeGroupF
  split <;> simp_all [← BitVec.toNat_inj]

/-- The low byte is the two low nibbles (R92). -/
theorem toNat_fieldNn (w : Word) : (fieldNn w).toNat = (fieldY w).toNat * 16 + (fieldN w).toNat := by
  simp only [fieldNn, fieldY, fieldN, BitVec.extractLsb'_toNat, Nat.shiftRight_eq_div_pow]
  omega

/-- Settles O4: only groups 0, 5, 8, 9, E and F test more than the primary opcode, and each refuses what
R100 lists for it. -/
theorem unrecognizedWordsAreTheTable : Obligations.UnrecognizedWordsAreTheTable := by
  intro op x y n
  have hlow : (fieldNn (wordXyn op x y n)).toNat = y.toNat * 16 + n.toNat := by simp [toNat_fieldNn]
  unfold decode
  rw [fieldOp_wordXyn]
  split
  case h_1 => simp [decodeGroup0_error_iff, ← BitVec.toNat_inj]
  case h_6 => simp [decodeGroup5_error_iff, ← BitVec.toNat_inj]
  case h_9 => simp [decodeGroup8_error_iff]
  case h_10 => simp [decodeGroup9_error_iff, ← BitVec.toNat_inj]
  case h_15 => rw [decodeGroupE_error_iff, hlow]; simp
  case h_16 =>
    obtain rfl : op = 0xF#4 := by
      simp only [imp_false] at *
      bv_omega
    rw [decodeGroupF_error_iff, hlow]; simp
  all_goals simp

/-- Settles O5: the decoder evaluated on each word. -/
theorem sampleWordsDecode : Obligations.SampleWordsDecode := by
  unfold Obligations.SampleWordsDecode
  decide

end Sys2Proof
end

section
/-! PROOFS. The Cycle operation as a whole: its gate, its dispatch, its results and its end (R120 to R131). -/
namespace Sys2Proof.Machine

variable {i : Instr} {s t : State}

/-- `step` is `cycle` with the results left out (R39, R129). -/
theorem step_of_cycle {r : CycleResult} (h : cycle s = .next (t, r)) : step s = .next t := by
  simp only [step, h]

/-- A cycle begun in a stopped state answers that state and reports IDLE (R122). -/
theorem cycle_stopped (hm : s.mode.stopped = true) : cycle s = .next (s, ⟨false, .idle, 0⟩) := by
  simp only [cycle, hm, if_true]

/-- A fetch whose check reports no address reads the word at PC (R123). -/
theorem State.fetch_of_in_bounds (h : s.fetchInBounds) : s.fetch = .ok s.fetchWord := by
  simp only [State.fetch, s.fetch_none.mpr h]

/-- The step of a fetched word that decodes to no instruction is the counted no-op (R233). -/
theorem step_of_unrecognized (hm : s.mode.stopped = false) (hin : s.fetchInBounds) {e : Unrecognized}
    (hd : decode s.fetchWord = .error e) : step s = .next s.decodeFailure := by
  simp only [step, cycle, hm, Bool.false_eq_true, if_false, State.fetch_of_in_bounds hin, hd]

/-- The step of a fetched word that decodes to an instruction is that instruction's `exec` (R124). -/
theorem step_of_decoded (hm : s.mode.stopped = false) (hin : s.fetchInBounds)
    (hd : decode s.fetchWord = .ok i) : step s = exec i s := by
  obtain ⟨t, ht⟩ := exec_answers i s
  simp only [step, cycle, hm, Bool.false_eq_true, if_false, State.fetch_of_in_bounds hin, hd, ht]

/-- Settles O6: the word at PC is the two bytes, high byte first (R67). -/
theorem stepRunsTheDecodedInstruction : Obligations.StepRunsTheDecodedInstruction := by
  intro s i hl hin hd
  exact step_of_decoded ((Mode.stopped_eq_false s.mode).mpr hl) hin hd

/-- Settles O7: the gate stops the cycle before its fetch. -/
theorem idleCycleChangesNothing : Obligations.IdleCycleChangesNothing := by
  intro s h
  have hm := (Mode.stopped_eq_true s.mode).mpr h
  exact ⟨step_stopped s hm, cycle_stopped hm⟩

/-! ### The results (R129) -/

/-- The redraw marks belong to CLS and DRW (R203). -/
theorem redraws_iff (i : Instr) : redraws i = true ↔ i = .cls ∨ ∃ x y n, i = .drw x y n := by
  cases i <;> simp [redraws]

/-- A cycle that executed an instruction and entered its fault reports the word (R129). -/
theorem executedResult_of_faulted (i : Instr) (w : Word) (h : t.mode = .faulted) :
    executedResult i w t = ⟨false, .fault, w⟩ := if_pos h

/-- A cycle that completed an instruction reports OK (R129). -/
theorem executedResult_of_not_faulted (i : Instr) (w : Word) (h : t.mode ≠ .faulted) :
    executedResult i w t = ⟨redraws i, .ok, 0⟩ := if_neg h

/-- Settles O10: each end of a cycle reports its own status, and only a completed CLS or DRW redraws. -/
theorem cycleReportsItsResults : Obligations.CycleReportsItsResults := by
  intro s
  have hrun : s.runOver ↔ s.mode.stopped = true := (Mode.stopped_eq_true s.mode).symm
  have hlive : s.live ↔ s.mode.stopped = false := (Mode.stopped_eq_false s.mode).symm
  cases hm : s.mode.stopped with
  | true =>
    have hc := cycle_stopped hm
    refine ⟨_, _, hc, step_of_cycle hc, ?_⟩
    simp [hrun, hlive, hm, Status.code]
  | false =>
    rcases cycle_cases s hm with ⟨a, hb, hc⟩ | ⟨hin, ⟨e, hd⟩, hc⟩ | ⟨i, t, hin, hd, -, hc⟩
    · have hout : ¬ s.fetchInBounds := by simp [← s.fetch_none, hb]
      refine ⟨_, _, hc, step_of_cycle hc, ?_⟩
      simp [hrun, hlive, hm, hout, Status.code]
    · refine ⟨_, _, hc, step_of_cycle hc, ?_⟩
      simp [hrun, hlive, hm, hin, hd, Status.code]
    · refine ⟨t, _, hc, step_of_cycle hc, ?_⟩
      by_cases hf : t.mode = .faulted
      · simp [executedResult_of_faulted i _ hf, hrun, hlive, hm, hin, hd, hf, Status.code]
      · simp [executedResult_of_not_faulted i _ hf, hrun, hlive, hm, hd, hf, redraws_iff, Status.code]

/-! ### MODE is read by the gate alone (R131, R245) -/

/-- LD Vx, [I]'s loop neither reads nor writes MODE (R185). -/
theorem State.loadFrom_withMode (s : State) (m : Mode) (a n : Nat) :
    ({ s with mode := m } : State).loadFrom a n = { s.loadFrom a n with mode := m } := by
  induction n with
  | zero => rfl
  | succ k ih => simp only [State.loadFrom]; rw [ih]; rfl

/-- An effect neither reads nor writes MODE (R245). -/
theorem effect_withMode (i : Instr) (s : State) (m : Mode) :
    i.effect { s with mode := m } = { i.effect s with mode := m } := by
  cases i with
  | loadRegs x => exact s.loadFrom_withMode m s.base (x.toNat + 1)
  | ldVxK x =>
    have hk : ({ s with mode := m } : State).lowestKey = s.lowestKey := rfl
    simp only [Instr.effect, hk]
    cases s.lowestKey <;> rfl
  | _ => rfl

/-- No instruction's end of cycle depends on MODE, which both kinds of end write (R127, R236). -/
theorem exec_withMode (i : Instr) (s : State) (m : Mode) : exec i { s with mode := m } = exec i s := by
  have hfault : i.fault { s with mode := m } = i.fault s := by cases i <;> rfl
  have houtcome : i.outcome { s with mode := m } = i.outcome s := by cases i <;> rfl
  rw [exec_eq, exec_eq, hfault, houtcome, effect_withMode]
  cases i.fault s <;> rfl

/-- Past the gate, a step does not depend on which of the two executing modes it begins in: the fetch, the
decoding and the instruction do not read MODE (R122, R131). -/
theorem step_withMode (hs : s.mode.stopped = false) {m : Mode} (hm : m.stopped = false) :
    step { s with mode := m } = step s := by
  rcases step_cases s hs with ⟨a, hb, h⟩ | ⟨hin, ⟨e, hd⟩, h⟩ | ⟨i, t, hin, hd, hi, h⟩
  · exact (step_of_cycle (cycle_of_fetch_outOfBounds (s := { s with mode := m }) hm hb)).trans h.symm
  · exact (step_of_unrecognized (s := { s with mode := m }) hm hin hd).trans h.symm
  · calc step { s with mode := m }
      _ = exec i { s with mode := m } := step_of_decoded hm hin hd
      _ = exec i s := exec_withMode i s m
      _ = step s := hi.trans h.symm

/-- Settles O11: both are executing modes. -/
theorem waitingNeverChangesTheNextCycle : Obligations.WaitingNeverChangesTheNextCycle :=
  fun s => step_withMode (s := { s with mode := .running }) rfl rfl

/-! ### The end of the cycle (R125 to R128) -/

@[simp] theorem effect_keys : (i.effect s).keys = s.keys := by rw [effectOf_effect i s]
@[simp] theorem effect_cycles : (i.effect s).cycles = s.cycles := by rw [effectOf_effect i s]

/-- K is kept by the outcome that ends in WaitingForKey alone (R125, R127). -/
theorem keysAfter_of_waiting {k : OutcomeKind} (h : modeAfter k = .waitingForKey) (keys : Vector Bool 16) :
    keysAfter k keys = keys := by
  cases k with
  | wait => rfl
  | next | goto t | halt => cases h

/-- K is cleared by every outcome that does not end in WaitingForKey (R125, R127). -/
theorem keysAfter_of_not_waiting {k : OutcomeKind} (h : modeAfter k ≠ .waitingForKey)
    (keys : Vector Bool 16) : keysAfter k keys = noKeys := by
  cases k with
  | wait => exact absurd rfl h
  | next | goto t | halt => rfl

/-- Settles O12: an executing cycle that does not fault is the no-op of an unrecognized word or ends as its
instruction's outcome kind says. -/
theorem endOfCycleFollowsTheOutcome : Obligations.EndOfCycleFollowsTheOutcome := by
  intro s t hl h hf
  cases stepEnds_of_step h with
  | idle hm =>
    rw [(Mode.stopped_eq_false s.mode).mpr hl] at hm
    cases hm
  | faulted c a w => exact absurd rfl hf
  | unrecognized e => simp
  | completed i =>
    simp only [State.finish_cycles, State.finish_mode, State.finish_keys, State.finish_pc, effect_cycles,
      effect_keys, effect_pc, true_and]
    refine ⟨fun hw => ⟨keysAfter_of_waiting hw _, pcAfter_of_not_running (by simp [hw]) _⟩,
      fun hh => ⟨keysAfter_of_not_waiting (by simp [hh]) _, pcAfter_of_not_running (by simp [hh]) _⟩,
      fun hr => keysAfter_of_not_waiting (by simp [hr]) _⟩

end Sys2Proof.Machine
end

section
/-! PROOFS. The control flow instructions (R141 to R149): HALT, the jumps, CALL, CALL followed by RET, and
the skips. -/
namespace Sys2Proof.Machine

variable {i : Instr} {s t : State}

/-- A value moved on by `n` is the truncated sum, the form in which the rules state an advanced PC (R23). -/
theorem word_add_ofNat (w : Word) (n : Nat) : w + BitVec.ofNat 16 n = BitVec.ofNat 16 (w.toNat + n) := by
  rw [BitVec.ofNat_add, BitVec.ofNat_toNat, BitVec.setWidth_eq]

/-! ### CALL and RET (R30 to R32, R141, R144) -/

/-- An instruction that does not end in Faulted has had its effect and ended its cycle (R125 to R128). -/
theorem completed_of_not_faulted (h : exec i s = .next t) (hm : t.mode ≠ .faulted) :
    i.fault s = none ∧ t = (i.effect s).finish (i.outcome s) := by
  cases hf : i.fault s with
  | some f =>
    cases (exec_of_fault hf).symm.trans h
    exact absurd rfl hm
  | none =>
    cases (exec_of_no_fault hf).symm.trans h
    exact ⟨rfl, rfl⟩

/-- A push onto a stack with a free slot puts the word on top (R31, R32). -/
theorem State.top_push (w : Word) (hfree : s.sp.toNat < s.stack.length) (hsp : s.sp.toNat < 255) :
    (s.push w).top = w := by
  have hslot : (s.sp + 1).toNat - 1 = s.sp.toNat := by bv_omega
  rw [State.top, State.push_sp, State.push_stack, hslot]
  simp [hfree]

/-- Settles O33: a CALL that completes found a free slot, so RET pops what it pushed and restores SP. -/
theorem returnAfterCallComesBack : Obligations.ReturnAfterCallComesBack := by
  intro s t nnn hinv h hm
  obtain ⟨⟨⟨-, -, -, -, hdepth⟩, -, -, hlen, -⟩, hsp, -⟩ := hinv
  obtain ⟨hf, rfl⟩ := completed_of_not_faulted h (by simp [hm])
  have hfull : s.sp.toNat ≠ s.params.stackDepth := by simpa [Instr.fault] using hf
  have htop := State.top_push s.returnAddress (s := s) (by omega) (by omega)
  have hne : s.sp + 1 ≠ 0 := by bv_omega
  refine ⟨_, exec_of_no_fault (i := .ret) (if_neg hne), rfl, ?_, ?_, rfl, rfl⟩
  · exact htop.trans (word_add_ofNat s.pc 2)
  · exact BitVec.add_sub_cancel s.sp 1

/-- Settles O32: CALL's check is the only thing that separates its two ends. -/
theorem callPushesTheReturnAddress : Obligations.CallPushesTheReturnAddress := by
  refine fun nnn => ⟨decodeOfEncode (.call nnn) rfl, fun s => ⟨fun hsp => ?_, fun hsp => ?_⟩⟩
  · rw [← word_add_ofNat]
    exact exec_of_no_fault (i := .call nnn) (if_neg hsp)
  · rw [← hsp]
    exact exec_of_fault (i := .call nnn) (if_pos hsp)

/-! ### HALT and the jumps (R142, R143, R145) -/

/-- Settles O30: the words of CLS and RET are the ones HALT's row leaves out, and HALT has no effect of its
own before the end of its cycle. -/
theorem haltStopsTheMachine : Obligations.HaltStopsTheMachine := by
  refine fun kk => ⟨fun hcls hret => decodeOfEncode (.halt kk) ?_, fun s => ?_⟩
  · simpa [Instr.wellFormed] using ⟨hcls, hret⟩
  · exact exec_of_no_fault (i := .halt kk) rfl

/-- Settles O31: JP's outcome is `Goto(nnn)`, with no effect of its own. -/
theorem jumpGoesToTheTarget : Obligations.JumpGoesToTheTarget :=
  fun nnn => ⟨decodeOfEncode (.jp nnn) rfl, fun _ => exec_of_no_fault (i := .jp nnn) rfl⟩

/-- Settles O34: the outcome is `Goto(V0 + nnn)`, and the sum of a byte and twelve bits fits PC. -/
theorem jumpV0AddsV0 : Obligations.JumpV0AddsV0 :=
  fun nnn => ⟨decodeOfEncode (.jpV0 nnn) rfl,
    fun s => ⟨_, exec_of_no_fault (i := .jpV0 nnn) rfl, rfl, s.toNat_jumpV0Target nnn⟩⟩

/-! ### The skips (R146 to R149) -/

/-- The end of a skip's cycle: PC moves on by `n`, which is 4 when the condition holds and 2 otherwise
(R126). -/
theorem State.finish_skipIf (s : State) {cond : Bool} {n : Nat} (hn : (if cond then 4 else 2) = n) :
    s.finish (s.skipIf cond) =
      { s with
        pc := BitVec.ofNat 16 (s.pc.toNat + n)
        keys := noKeys
        mode := .running
        cycles := s.cycles + 1 } := by
  subst hn
  rw [← word_add_ofNat]
  cases cond <;> rfl

/-- Settles O35: SE's condition is V[x] = nn, SNE's its negation. -/
theorem skipOnImmediate : Obligations.SkipOnImmediate := by
  refine fun x nn => ⟨decodeOfEncode (.seImm x nn) rfl, decodeOfEncode (.sneImm x nn) rfl, fun s => ⟨?_, ?_⟩⟩
  · rw [← s.finish_skipIf (cond := s.reg x == nn) (by simp)]
    exact exec_of_no_fault (i := .seImm x nn) rfl
  · rw [← s.finish_skipIf (cond := s.reg x != nn) (by simp)]
    exact exec_of_no_fault (i := .sneImm x nn) rfl

/-- Settles O36: SE's condition is V[x] = V[y], SNE's its negation. -/
theorem skipOnRegister : Obligations.SkipOnRegister := by
  refine fun x y => ⟨decodeOfEncode (.seReg x y) rfl, decodeOfEncode (.sneReg x y) rfl, fun s => ⟨?_, ?_⟩⟩
  · rw [← s.finish_skipIf (cond := s.reg x == s.reg y) (by simp)]
    exact exec_of_no_fault (i := .seReg x y) rfl
  · rw [← s.finish_skipIf (cond := s.reg x != s.reg y) (by simp)]
    exact exec_of_no_fault (i := .sneReg x y) rfl

end Sys2Proof.Machine
end

section
/-! PROOFS. The register loads and the ALU (R160 to R172, R214): the 8-bit arithmetic and the flags read
as natural numbers, the end of a cycle that wrote V alone, and the instructions. -/
namespace Sys2Proof.Machine

/-! ### The results and the flags as natural numbers (R172) -/

theorem toNat_addByte (a b : Byte) : (addByte a b).toNat = (a.toNat + b.toNat) % 256 :=
  BitVec.toNat_ofNat _ _

theorem toNat_subByte (a b : Byte) : (subByte a b).toNat = (256 + a.toNat - b.toNat) % 256 :=
  BitVec.toNat_ofNat _ _

/-- A right shift halves, so nothing is truncated (R168). -/
theorem toNat_shrByte (a : Byte) : (shrByte a).toNat = a.toNat / 2 := by
  rw [shrByte, BitVec.toNat_ofNat]
  exact Nat.mod_eq_of_lt (by omega)

theorem toNat_shlByte (a : Byte) : (shlByte a).toNat = 2 * a.toNat % 256 := by
  rw [shlByte, BitVec.toNat_ofNat, Nat.mul_comm]

theorem toNat_flag (b : Bool) : (flag b).toNat = b.toNat := by cases b <;> rfl

theorem toNat_flag_decide (p : Prop) [Decidable p] : (flag (decide p)).toNat = if p then 1 else 0 := by
  by_cases h : p <;> simp [flag, h]

theorem toNat_carryFlag (a b : Byte) :
    (carryFlag a b).toNat = if a.toNat + b.toNat > 255 then 1 else 0 :=
  toNat_flag_decide _

theorem toNat_noBorrowFlag (a b : Byte) :
    (noBorrowFlag a b).toNat = if b.toNat > a.toNat then 0 else 1 := by
  rw [noBorrowFlag, ← decide_not, toNat_flag_decide, ite_not]

/-- Bit 0 is the remainder of the halving (R168). -/
theorem toNat_shrFlag (a : Byte) : (shrFlag a).toNat = a.toNat % 2 := by
  rw [shrFlag, toNat_flag, BitVec.getLsbD, Nat.toNat_testBit, Nat.pow_zero, Nat.div_one]

/-- Bit 7 is the top bit, so it is the whole quotient by 128 (R170). -/
theorem toNat_shlFlag (a : Byte) : (shlFlag a).toNat = a.toNat / 128 := by
  rw [shlFlag, toNat_flag, BitVec.getLsbD, Nat.toNat_testBit]
  exact Nat.mod_eq_of_lt (by omega)

/-! ### The end of a cycle that wrote V alone (R125 to R128, R140) -/

/-- A `Next` outcome after the write of one register changes V and the elements `Next` writes. -/
theorem State.endsNextWritingV_setReg (s : State) (x : Nibble) (b : Byte) :
    s.endsNextWritingV ((s.setReg x b).finish .next) := rfl

/-- The same after the write of a register and the flag (R171). -/
theorem State.endsNextWritingV_setRegFlag (s : State) (x : Nibble) (b f : Byte) :
    s.endsNextWritingV ((s.setRegFlag x b f).finish .next) := rfl

/-! ### The instructions that write their result alone (R160 to R165, R214) -/

/-- Settles O23: each is one register write, of `nn`, V[y] or DT. -/
theorem loadsIntoARegister : Obligations.LoadsIntoARegister := by
  intro x y nn
  refine ⟨decodeOfEncode (.ldImm x nn) rfl, decodeOfEncode (.ldReg x y) rfl, decodeOfEncode (.ldVxDt x) rfl,
    fun s => ⟨_, _, _, exec_of_no_fault (i := .ldImm x nn) rfl, exec_of_no_fault (i := .ldReg x y) rfl,
      exec_of_no_fault (i := .ldVxDt x) rfl, s.endsNextWritingV_setReg x _, s.endsNextWritingV_setReg x _,
      s.endsNextWritingV_setReg x _, fun z => ⟨?_, ?_, ?_⟩⟩⟩
  · exact s.reg_setReg x z nn
  · exact s.reg_setReg x z (s.reg y)
  · exact s.reg_setReg x z s.dt

/-- Settles O24: one register write, of the truncated sum. -/
theorem addImmediate : Obligations.AddImmediate := by
  intro x nn
  refine ⟨decodeOfEncode (.addImm x nn) rfl, fun s => ⟨_, exec_of_no_fault (i := .addImm x nn) rfl,
    s.endsNextWritingV_setReg x _, ?_, fun z hz => reg_effect (i := .addImm x nn) hz⟩⟩
  simp [Instr.effect, toNat_addByte]

/-- Settles O25: one register write each, of a word-wide operation that acts on every bit alone. -/
theorem bitwiseInstructions : Obligations.BitwiseInstructions := by
  intro x y
  refine ⟨decodeOfEncode (.orReg x y) rfl, decodeOfEncode (.andReg x y) rfl, decodeOfEncode (.xorReg x y) rfl,
    fun s => ⟨_, _, _, exec_of_no_fault (i := .orReg x y) rfl, exec_of_no_fault (i := .andReg x y) rfl,
      exec_of_no_fault (i := .xorReg x y) rfl, s.endsNextWritingV_setReg x _, s.endsNextWritingV_setReg x _,
      s.endsNextWritingV_setReg x _, fun k => ?_, fun k => ?_, fun k => ?_, fun z hz => ⟨?_, ?_, ?_⟩⟩⟩
  · simp [Instr.effect, BitVec.getLsbD_or]
  · simp [Instr.effect, BitVec.getLsbD_and]
  · simp [Instr.effect, BitVec.getLsbD_xor]
  · exact reg_effect (i := .orReg x y) hz
  · exact reg_effect (i := .andReg x y) hz
  · exact reg_effect (i := .xorReg x y) hz

/-! ### The instructions that write a flag last (R166 to R171) -/

/-- Settles O26: the sum and the carry are both of the old values, and VF is written last. -/
theorem addRegisters : Obligations.AddRegisters := by
  intro x y
  refine ⟨decodeOfEncode (.addReg x y) rfl, fun s => ⟨_, exec_of_no_fault (i := .addReg x y) rfl,
    s.endsNextWritingV_setRegFlag x _ _, ?_, fun hx => ?_, fun z hz hf => ?_⟩⟩
  · simp [Instr.effect, toNat_carryFlag]
  · simp [Instr.effect, hx, toNat_addByte]
  · exact reg_effect (i := .addReg x y) (not_or.mpr ⟨hf, hz⟩)

/-- Settles O27: SUBN is SUB with the operands the other way round, in the difference and in the flag. -/
theorem subtractRegisters : Obligations.SubtractRegisters := by
  intro x y
  refine ⟨decodeOfEncode (.subReg x y) rfl, decodeOfEncode (.subnReg x y) rfl, fun s =>
    ⟨_, _, exec_of_no_fault (i := .subReg x y) rfl, exec_of_no_fault (i := .subnReg x y) rfl,
      s.endsNextWritingV_setRegFlag x _ _, s.endsNextWritingV_setRegFlag x _ _, ?_, ?_,
      fun hx => ⟨?_, ?_⟩, fun z hz hf => ⟨?_, ?_⟩⟩⟩
  · simp [Instr.effect, toNat_noBorrowFlag]
  · simp [Instr.effect, toNat_noBorrowFlag]
  · simp [Instr.effect, hx, toNat_subByte]
  · simp [Instr.effect, hx, toNat_subByte]
  · exact reg_effect (i := .subReg x y) (not_or.mpr ⟨hf, hz⟩)
  · exact reg_effect (i := .subnReg x y) (not_or.mpr ⟨hf, hz⟩)

/-- Settles O28: neither meaning has `y` in it, and the flag is the bit that leaves the byte. -/
theorem shiftRegister : Obligations.ShiftRegister := by
  intro x y
  refine ⟨decodeOfEncode (.shr x y) rfl, decodeOfEncode (.shl x y) rfl, fun s =>
    ⟨_, _, exec_of_no_fault (i := .shr x y) rfl, exec_of_no_fault (i := .shl x y) rfl,
      s.endsNextWritingV_setRegFlag x _ _, s.endsNextWritingV_setRegFlag x _ _, ?_, ?_,
      fun hx => ⟨?_, ?_⟩, fun z hz hf => ⟨?_, ?_⟩⟩⟩
  · simp [Instr.effect, toNat_shrFlag]
  · simp [Instr.effect, toNat_shlFlag]
  · simp [Instr.effect, hx, toNat_shrByte]
  · simp [Instr.effect, hx, toNat_shlByte]
  · exact reg_effect (i := .shr x y) (not_or.mpr ⟨hf, hz⟩)
  · exact reg_effect (i := .shl x y) (not_or.mpr ⟨hf, hz⟩)

end Sys2Proof.Machine
end

section
/-! PROOFS. The index register and memory (R180 to R186): the instructions that write I alone, the check of
a block at I, and the instructions that store or load one. -/
namespace Sys2Proof.Machine

variable {s : State}

/-! ### The instructions that write I alone (R180 to R182) -/

/-- The sum is truncated to the 16 bits of I (R181). -/
theorem State.toNat_indexSum (s : State) (x : Nibble) :
    (s.indexSum x).toNat = (s.i.toNat + (s.reg x).toNat) % 65536 :=
  BitVec.toNat_ofNat _ _

/-- The largest glyph address is 0x050 + 5 * 255, so nothing is truncated (R182). -/
theorem toNat_glyphAddress (b : Byte) : (glyphAddress b).toNat = 0x0050 + 5 * b.toNat := by
  rw [glyphAddress, fontBase, BitVec.toNat_ofNat]
  exact Nat.mod_eq_of_lt (by omega)

/-- Settles O37: one write of I, of the zero-extended immediate. -/
theorem loadIndex : Obligations.LoadIndex :=
  fun nnn => ⟨decodeOfEncode (.ldI nnn) rfl, fun _ => exec_of_no_fault (i := .ldI nnn) rfl⟩

/-- Settles O38: one write of I, of the truncated sum. -/
theorem addToIndex : Obligations.AddToIndex :=
  fun x => ⟨decodeOfEncode (.addI x) rfl,
    fun s => ⟨_, exec_of_no_fault (i := .addI x) rfl, rfl, s.toNat_indexSum x⟩⟩

/-- Settles O39: one write of I, of an address that fits it for every byte. -/
theorem loadGlyphAddress : Obligations.LoadGlyphAddress :=
  fun x => ⟨decodeOfEncode (.ldF x) rfl,
    fun s => ⟨_, exec_of_no_fault (i := .ldF x) rfl, rfl, toNat_glyphAddress (s.reg x)⟩⟩

/-! ### The check of a block (R65, R186) -/

/-- A block whose last address is in Memory passes the check (R65). -/
theorem State.outOfBounds_of_last_inside {a k : Nat} (h : a + k < s.params.memSize) :
    s.outOfBounds a (k + 1) = none :=
  (s.outOfBounds_eq_none _ _).mpr (.inr h)

/-- A block whose last address is outside Memory fails the check, at its base if that is outside too and
at MEM_SIZE otherwise (R65). -/
theorem State.outOfBounds_of_last_outside {a k : Nat} (h : s.params.memSize ≤ a + k) :
    s.outOfBounds a (k + 1) = some (max a s.params.memSize) :=
  (s.outOfBounds_eq_some _ _ _).mpr ⟨by omega, fun c _ _ _ => by omega⟩

/-! ### Storing a block (R183, R184) -/

/-- The cycle of a store that does not fault changes Memory and the elements `Next` writes. -/
theorem State.finish_store (s : State) (a : Nat) (bs : List Byte) :
    (s.store a bs).finish .next =
      { s with
        mem := s.mem.writeBytes a bs
        pc := s.pc + 2
        keys := noKeys
        mode := .running
        cycles := s.cycles + 1 } := rfl

/-- A block write leaves the addresses before and after the block alone (R72). -/
theorem Memory.read_writeBytes_outside (m : Memory) {a b : Nat} {bs : List Byte}
    (h : b < a ∨ a + bs.length ≤ b) : (m.writeBytes a bs).read b = m.read b := by
  rw [Memory.read_writeBytes]
  rcases h with hbefore | hafter
  · exact if_neg (by omega)
  · rw [List.getElem?_eq_none (by omega), Option.getD_none, ite_self]

/-- Byte `k` of a stored block is read at the block's base plus `k` (R72). -/
theorem Memory.read_writeBytes_inside (m : Memory) (a : Nat) {bs : List Byte} {k : Nat} {b : Byte}
    (h : bs[k]? = some b) : (m.writeBytes a bs).read (a + k) = b := by
  rw [Memory.read_writeBytes, if_pos (Nat.le_add_right a k), Nat.add_sub_cancel_left, h, Option.getD_some]

/-- A decimal digit fits a byte, so one stored in a block is read back as itself (R183). -/
theorem Memory.toNat_read_writeBytes_digit (m : Memory) (a : Nat) {bs : List Byte} {k d : Nat}
    (h : bs[k]? = some (BitVec.ofNat 8 d)) (hd : d < 10) : ((m.writeBytes a bs).read (a + k)).toNat = d := by
  rw [Memory.read_writeBytes_inside m a h, BitVec.toNat_ofNat]
  exact Nat.mod_eq_of_lt (by omega)

/-- Settles O40: the block is the three digits, and the check is over their three addresses. -/
theorem storeDecimalDigits : Obligations.StoreDecimalDigits := by
  refine fun x => ⟨decodeOfEncode (.ldB x) rfl, fun s => ⟨fun hin => ?_, fun hout => ?_⟩⟩
  · have hcheck := State.outOfBounds_of_last_inside hin
    refine ⟨_, exec_of_no_fault (i := .ldB x) (Option.map_eq_none_iff.mpr hcheck), s.finish_store _ _,
      ?hundreds, ?tens, ?units, fun a ha => Memory.read_writeBytes_outside s.mem ha⟩
    case hundreds => exact Memory.toNat_read_writeBytes_digit s.mem s.base (k := 0) rfl (by omega)
    case tens => exact Memory.toNat_read_writeBytes_digit s.mem s.base (k := 1) rfl (by omega)
    case units => exact Memory.toNat_read_writeBytes_digit s.mem s.base (k := 2) rfl (by omega)
  · have hcheck := State.outOfBounds_of_last_outside hout
    exact exec_of_fault (i := .ldB x) (Option.map_eq_some_iff.mpr ⟨_, hcheck, rfl⟩)

/-- Settles O41: the block is V0 to V[x], and the check is over its `x + 1` addresses. -/
theorem storeRegisters : Obligations.StoreRegisters := by
  refine fun x => ⟨decodeOfEncode (.storeRegs x) rfl, fun s => ⟨fun hin => ?_, fun hout => ?_⟩⟩
  · refine ⟨_, exec_storeRegs_of_in_memory hin, s.finish_store _ _,
      fun k hk => s.read_store_regsUpTo s.base hk, fun a ha => Memory.read_writeBytes_outside s.mem ?_⟩
    rw [State.regsUpTo_length]
    exact ha
  · have hcheck := State.outOfBounds_of_last_outside hout
    exact exec_of_fault (i := .storeRegs x) (Option.map_eq_some_iff.mpr ⟨_, hcheck, rfl⟩)

/-! ### Loading a block (R185) -/

/-- LD Vx, [I] completes when its whole block is in Memory (R65, R185). -/
theorem exec_loadRegs_of_in_memory {x : Nibble} (h : s.i.toNat + x.toNat < s.params.memSize) :
    exec (.loadRegs x) s = .next ((s.loadFrom s.base (x.toNat + 1)).finish .next) :=
  exec_of_no_fault (i := .loadRegs x) (Option.map_eq_none_iff.mpr (State.outOfBounds_of_last_inside h))

/-- A `Next` outcome after the load of a block changes V and the elements `Next` writes. -/
theorem State.endsNextWritingV_loadFrom (s : State) (a n : Nat) :
    s.endsNextWritingV ((s.loadFrom a n).finish .next) := by
  rw [State.loadFrom_eq]; rfl

/-- LD Vx, [I]'s loop writes the registers from V0 to V[x] and leaves the others (R185). -/
theorem State.reg_loadFrom_upTo (s : State) (a : Nat) (x k : Nibble) :
    (s.loadFrom a (x.toNat + 1)).reg k = if k.toNat ≤ x.toNat then s.mem.read (a + k.toNat) else s.reg k := by
  rw [State.reg_loadFrom s a _ k (by omega)]
  simp only [Nat.lt_succ_iff]

/-- Settles O42: the block is read into V0 to V[x], and the check is over its `x + 1` addresses. -/
theorem loadRegisters : Obligations.LoadRegisters := by
  refine fun x => ⟨decodeOfEncode (.loadRegs x) rfl, fun s => ⟨fun hin => ?_, fun hout => ?_⟩⟩
  · exact ⟨_, exec_loadRegs_of_in_memory hin, s.endsNextWritingV_loadFrom _ _, s.reg_loadFrom_upTo s.base x⟩
  · have hcheck := State.outOfBounds_of_last_outside hout
    exact exec_of_fault (i := .loadRegs x) (Option.map_eq_some_iff.mpr ⟨_, hcheck, rfl⟩)

/-- Settles O43: by the two instructions' statements, every register of the block is loaded with the byte
that was stored from it, at an I neither changes. -/
theorem storeThenLoadRestores : Obligations.StoreThenLoadRestores := by
  intro x s hin
  obtain ⟨t, hstore, ht, hblock, -⟩ := ((storeRegisters x).2 s).1 hin
  have hi : t.i = s.i := by rw [ht]
  have hp : t.params = s.params := by rw [ht]
  have hreg : ∀ k, t.reg k = s.reg k := fun k => by rw [ht]; rfl
  obtain ⟨u, hload, hu, hloaded⟩ := ((loadRegisters x).2 t).1 (by rw [hi, hp]; exact hin)
  refine ⟨t, u, hstore, hload, State.v_ext fun k => ?_, ?_, ?_⟩
  · rw [hloaded k, hi]
    split
    · next hk => exact hblock k hk
    · exact hreg k
  · rw [hu]; exact hi
  · rw [hu]

end Sys2Proof.Machine
end

section
/-! PROOFS. The display (R200 to R204): the places a sprite plots as the pixels its 1 bits land on, the two
ends of DRW, and CLS. -/
namespace Sys2Proof.Machine

variable {i : Instr} {s t : State}

/-- Settles O44: CLS replaces the framebuffer by the clear one. -/
theorem clearDisplay : Obligations.ClearDisplay :=
  ⟨decodeOfEncode .cls rfl, fun _ => ⟨_, exec_of_no_fault (i := .cls) rfl, rfl, rfl⟩⟩

/-! ### The places of a sprite (R201, R202) -/

/-- The places plotted are the pixels the sprite's 1 bits land on, in the same order (R202). -/
theorem State.spritePlaces_eq_map_landsOn (s : State) (x y n : Nibble) :
    spritePlaces s.params s.mem s.base (s.reg x).toNat (s.reg y).toNat n.toNat =
      (s.spriteBits n).map (s.landsOn x y) := by
  simp only [spritePlaces, rowPlaces, State.spriteBits, List.product, List.filter_flatMap, List.map_flatMap,
    List.filter_map, List.map_map]
  rfl

/-- Every 1 bit of a sprite lands on the display, which has a pixel at least (R202, R271). -/
theorem State.landsOn_in (hp : s.params.legal) (x y n : Nibble) :
    ∀ q ∈ (s.spriteBits n).map (s.landsOn x y), q.1 < s.params.dispH ∧ q.2 < s.params.dispW := by
  obtain ⟨-, ⟨hw, -⟩, ⟨hh, -⟩, -⟩ := hp
  rw [← State.spritePlaces_eq_map_landsOn]
  exact spritePlaces_in s.params hw hh s.mem _ _ _ _

/-- After the draw, a pixel has been inverted once for every 1 bit that lands on it (R202). -/
theorem State.pixel_afterSprite (hs : s.shaped) (x y n : Nibble) (py px : Nat) :
    (s.afterSprite x y n).1.pixel py px =
      (s.fb.pixel py px ^^ decide (((s.spriteBits n).map (s.landsOn x y)).count (py, px) % 2 = 1)) := by
  obtain ⟨hp, -, -, -, hfb⟩ := hs
  rw [State.afterSprite, State.spritePlaces_eq_map_landsOn]
  exact plot_pixel false hfb (State.landsOn_in hp x y n) py px

/-- The collision: some 1 bit, at its turn, finds its pixel lit (R202). -/
theorem State.collision_afterSprite (hs : s.shaped) (x y n : Nibble) :
    (s.afterSprite x y n).2 = true ↔ ∃ k rc, (s.spriteBits n)[k]? = some rc ∧
      (s.fb.pixel (s.landsOn x y rc).1 (s.landsOn x y rc).2 ^^
        decide ((((s.spriteBits n).take k).map (s.landsOn x y)).count (s.landsOn x y rc) % 2 = 1))
          = true := by
  obtain ⟨hp, -, -, -, hfb⟩ := hs
  rw [State.afterSprite, State.spritePlaces_eq_map_landsOn,
    plot_collision false hfb (State.landsOn_in hp x y n)]
  simp only [Bool.false_eq_true, false_or, List.length_map, List.getElem_map, ← List.map_take,
    List.getElem?_eq_some_iff]
  constructor
  · rintro ⟨k, hk, hlit⟩
    exact ⟨k, _, ⟨hk, rfl⟩, hlit⟩
  · rintro ⟨k, _, ⟨hk, rfl⟩, hlit⟩
    exact ⟨k, hk, hlit⟩

/-! ### DRW (R65, R202) -/

/-- A block that reaches past the end of Memory fails the check, at its base if that is outside too and at
MEM_SIZE otherwise (R65). -/
theorem State.outOfBounds_of_end_outside {a n : Nat} (hn : n ≠ 0) (h : s.params.memSize < a + n) :
    s.outOfBounds a n = some (max a s.params.memSize) := by
  obtain ⟨k, rfl⟩ := Nat.exists_eq_succ_of_ne_zero hn
  exact State.outOfBounds_of_last_outside (Nat.le_of_lt_succ h)

/-- DRW completes when it has no row or its whole sprite is in Memory (R65, R202). -/
theorem exec_drw_of_in_memory (x y : Nibble) {n : Nibble}
    (h : n = 0 ∨ s.i.toNat + n.toNat ≤ s.params.memSize) :
    exec (.drw x y n) s = .next (((Instr.drw x y n).effect s).finish .next) := by
  refine exec_of_no_fault (i := .drw x y n) (Option.map_eq_none_iff.mpr ((s.outOfBounds_eq_none _ _).mpr ?_))
  exact h.imp_left fun hn => congrArg BitVec.toNat hn

theorem flag_eq_one_iff (b : Bool) : flag b = 1 ↔ b = true := by cases b <;> decide

theorem flag_eq_one_or_zero (b : Bool) : flag b = 1 ∨ flag b = 0 := by cases b <;> decide

/-- DRW writes the collision to VF and no other register (R202). -/
theorem State.reg_effect_drw (s : State) (x y n z : Nibble) :
    ((Instr.drw x y n).effect s).reg z = if z = 0xF#4 then flag (s.afterSprite x y n).2 else s.reg z :=
  State.reg_setReg _ _ _ _

/-- Settles O45: DRW's check is over the sprite's `n` addresses; past it, the framebuffer and the collision
are those of the places the 1 bits land on. -/
theorem drawPlotsTheSprite : Obligations.DrawPlotsTheSprite := by
  refine fun x y n => ⟨decodeOfEncode (.drw x y n) rfl, fun s hn hout => ?_, fun s hs hin => ?_⟩
  · have hrows : n.toNat ≠ 0 := fun h => hn (BitVec.eq_of_toNat_eq h)
    have hcheck := State.outOfBounds_of_end_outside hrows hout
    exact exec_of_fault (i := .drw x y n) (Option.map_eq_some_iff.mpr ⟨_, hcheck, rfl⟩)
  · have hvf := s.reg_effect_drw x y n 0xF#4
    rw [if_pos rfl] at hvf
    refine ⟨_, exec_drw_of_in_memory x y hin, rfl, State.pixel_afterSprite hs x y n, fun z hz => ?_,
      ?_, ?_⟩
    · exact (s.reg_effect_drw x y n z).trans (if_neg hz)
    · rw [State.finish_reg, hvf]
      exact flag_eq_one_or_zero _
    · rw [State.finish_reg, hvf, flag_eq_one_iff]
      exact State.collision_afterSprite hs x y n

/-! ### A display on which the sprite cannot overlap itself (R202) -/

/-- A 1 bit is in one of the sprite's `n` rows and 8 columns (R201). -/
theorem State.lt_of_mem_spriteBits {n : Nibble} {rc : Nat × Nat} (h : rc ∈ s.spriteBits n) :
    rc.1 < n.toNat ∧ rc.2 < 8 := by
  have hgrid := List.mem_product.mp (List.mem_of_mem_filter h)
  exact hgrid.imp List.mem_range.mp List.mem_range.mp

theorem State.nodup_spriteBits (s : State) (n : Nibble) : (s.spriteBits n).Nodup :=
  (List.nodup_range.product List.nodup_range).filter _

/-- Wrapping an axis tells apart offsets smaller than its size. -/
theorem offset_eq_of_wrapped_eq {a b b' m : Nat} (h : (a + b) % m = (a + b') % m) (hb : b < m)
    (hb' : b' < m) : b = b' :=
  (Nat.ModEq.add_left_cancel' a h).eq_of_lt_of_lt hb hb'

/-- On a display at least as large as the sprite no two 1 bits land on the same pixel (R202). -/
theorem State.nodup_map_landsOn (x y : Nibble) {n : Nibble} (hw : 8 ≤ s.params.dispW)
    (hh : n.toNat ≤ s.params.dispH) : ((s.spriteBits n).map (s.landsOn x y)).Nodup := by
  refine (s.nodup_spriteBits n).map_on fun rc hrc rc' hrc' heq => ?_
  obtain ⟨hr, hc⟩ := State.lt_of_mem_spriteBits hrc
  obtain ⟨hr', hc'⟩ := State.lt_of_mem_spriteBits hrc'
  obtain ⟨hrow, hcol⟩ := Prod.mk.inj heq
  exact Prod.ext (offset_eq_of_wrapped_eq hrow (by omega) (by omega))
    (offset_eq_of_wrapped_eq hcol (by omega) (by omega))

/-- An element of a list without repetitions occurs an odd number of times iff it occurs. -/
theorem odd_count_iff_mem_of_nodup {α : Type} [BEq α] [LawfulBEq α] {l : List α} (h : l.Nodup) (a : α) :
    l.count a % 2 = 1 ↔ a ∈ l := by
  constructor
  · intro hodd
    exact List.count_pos_iff.mp (by omega)
  · intro hmem
    rw [List.count_eq_one_of_mem h hmem]

/-- In a list without repetitions no element occurs before its place. -/
theorem count_take_eq_zero_of_nodup {α : Type} [BEq α] [LawfulBEq α] {l : List α} (h : l.Nodup) {k : Nat}
    {a : α} (ha : l[k]? = some a) : (l.take k).count a = 0 := by
  refine List.count_eq_zero.mpr fun hmem => ?_
  exact List.disjoint_take_drop h (Nat.le_refl k) hmem (List.mem_of_getElem? (i := 0) (by simpa using ha))

/-- Settles O46: the 1 bits land on different pixels, so every count of O45's statement is 0 or 1, and before
a bit's turn it is 0. -/
theorem drawOnAWideDisplay : Obligations.DrawOnAWideDisplay := by
  intro x y n s hs hw hh hin
  obtain ⟨t, hexec, -, hpixel, -, -, hvf⟩ := (drawPlotsTheSprite x y n).2.2 s hs hin
  have hnodup := State.nodup_map_landsOn x y hw hh
  refine ⟨t, hexec, fun py px => ?_, ?_⟩
  · simp only [hpixel, odd_count_iff_mem_of_nodup hnodup, List.mem_map]
  · have hbefore : ∀ {k rc}, (s.spriteBits n)[k]? = some rc → decide
        ((((s.spriteBits n).take k).map (s.landsOn x y)).count (s.landsOn x y rc) % 2 = 1) = false := by
      intro k rc hk
      rw [List.map_take, count_take_eq_zero_of_nodup hnodup (by rw [List.getElem?_map, hk]; rfl)]
      rfl
    rw [hvf]
    constructor
    · rintro ⟨k, rc, hk, hlit⟩
      exact ⟨rc, List.mem_of_getElem? hk, by rwa [hbefore hk, Bool.xor_false] at hlit⟩
    · rintro ⟨rc, hrc, hlit⟩
      obtain ⟨k, hk⟩ := List.mem_iff_getElem?.mp hrc
      exact ⟨k, rc, hk, by rwa [hbefore hk, Bool.xor_false]⟩

/-! ### Drawing twice (R204) -/

/-- Two framebuffers of one size with the same pixels are the same. -/
theorem Framebuffer.ext_pixel {fb fb' : Framebuffer} {h w : Nat} (hs : fb.hasSize h w) (hs' : fb'.hasSize h w)
    (hpixel : ∀ y x, fb.pixel y x = fb'.pixel y x) : fb = fb' := by
  refine List.ext_getElem (hs.1.trans hs'.1.symm) fun y hy hy' => ?_
  have hlen := hs.2 _ (List.getElem_mem hy)
  have hlen' := hs'.2 _ (List.getElem_mem hy')
  refine List.ext_getElem (hlen.trans hlen'.symm) fun x hx hx' => ?_
  simpa [Framebuffer.pixel, hy, hy', hx, hx'] using hpixel y x

/-- An instruction that ends in Running keeps the storages' sizes (R43). -/
theorem shaped_of_exec (hs : s.shaped) (h : exec i s = .next t) (hm : t.mode = .running) : t.shaped := by
  obtain ⟨hf, rfl⟩ := completed_of_not_faulted h (by rw [hm]; decide)
  exact shaped_effect hs hf

/-- Settles O47: the first draw leaves what places the sprite as it was, so the second inverts the same
pixels again. -/
theorem drawTwiceRestoresTheDisplay : Obligations.DrawTwiceRestoresTheDisplay := by
  intro x y n s hs hx hy hin
  obtain ⟨t, hexec, ht, hpixel, hreg, -, -⟩ := (drawPlotsTheSprite x y n).2.2 s hs hin
  have hi : t.i = s.i := by rw [ht]
  have hmem : t.mem = s.mem := by rw [ht]
  have hp : t.params = s.params := by rw [ht]
  have hst : t.shaped := shaped_of_exec hs hexec (by rw [ht])
  obtain ⟨u, hexec', hu, hpixel', -, -, -⟩ := (drawPlotsTheSprite x y n).2.2 t hst (by rwa [hi, hp])
  have hpu : u.params = s.params := by rw [hu]; exact hp
  have hsu : u.shaped := shaped_of_exec hst hexec' (by rw [hu])
  have hbits : t.spriteBits n = s.spriteBits n := by simp only [State.spriteBits, hi, hmem]
  have hlands : t.landsOn x y = s.landsOn x y := by
    funext rc
    simp only [State.landsOn, hp, hreg x hx, hreg y hy]
  refine ⟨t, u, hexec, hexec', Framebuffer.ext_pixel (h := s.params.dispH) (w := s.params.dispW) ?_ ?_ ?_⟩
  · obtain ⟨-, -, -, -, hfb⟩ := hsu
    rwa [hpu] at hfb
  · obtain ⟨-, -, -, -, hfb⟩ := hs
    exact hfb
  · intro py px
    rw [hpixel', hpixel, hbits, hlands, Bool.xor_assoc, Bool.xor_self, Bool.xor_false]

end Sys2Proof.Machine
end

section
/-! PROOFS. The keyboard, the timers and the random byte (R210 to R218, R222): the skips on a key, the two
ends of LD Vx, K, the timer writes, and RND. -/
namespace Sys2Proof.Machine

variable {s : State}

/-! ### The keyboard (R210 to R213) -/

/-- Settles O48: the key a register selects is its value modulo 16, and SKNP's condition is SKP's negated. -/
theorem skipOnKey : Obligations.SkipOnKey := by
  refine fun x => ⟨decodeOfEncode (.skp x) rfl, decodeOfEncode (.sknp x) rfl, fun s => ?_⟩
  rw [← s.keyNumber_eq_ofNat x]
  constructor
  · rw [← s.finish_skipIf (cond := s.key (s.keyNumber x)) rfl]
    exact exec_of_no_fault (i := .skp x) rfl
  · rw [← s.finish_skipIf (cond := !s.key (s.keyNumber x)) (by cases s.key (s.keyNumber x) <;> rfl)]
    exact exec_of_no_fault (i := .sknp x) rfl

/-- With no key pressed the instruction has no effect and waits (R213). -/
theorem exec_ldVxK_of_no_key {x : Nibble} (h : s.lowestKey = none) :
    exec (.ldVxK x) s = .next (s.finish .wait) := by
  simp only [exec, execLdVxK, h]

/-- With a key pressed it writes the lowest one's number and ends its cycle (R213). -/
theorem exec_ldVxK_of_lowestKey {x k : Nibble} (h : s.lowestKey = some k) :
    exec (.ldVxK x) s = .next ((s.setReg x (k.setWidth 8)).finish .next) := by
  simp only [exec, execLdVxK, h]

/-- Settles O49: the two clauses are the two answers of the search for the lowest key, whose number fits
the register. -/
theorem waitForKey : Obligations.WaitForKey := by
  refine fun x => ⟨decodeOfEncode (.ldVxK x) rfl, fun s => ⟨fun hnone => ?_, fun k hk hlow => ?_⟩⟩
  · exact exec_ldVxK_of_no_key (s.lowestKey_eq_none.mpr hnone)
  · have hlowest : s.lowestKey = some k := (s.lowestKey_eq_some k).mpr ⟨hk, hlow⟩
    refine ⟨_, exec_ldVxK_of_lowestKey hlowest, s.endsNextWritingV_setReg x _, ?_, fun z hz => ?_⟩
    · have hfits : k.toNat % 256 = k.toNat := Nat.mod_eq_of_lt (by omega)
      simp [hfits]
    · simp [hz]

/-! ### The timers (R215, R216) -/

/-- Settles O50: each is one write, of DT or of ST, before the end of its cycle. -/
theorem writeTimers : Obligations.WriteTimers :=
  fun x => ⟨decodeOfEncode (.ldDtVx x) rfl, decodeOfEncode (.ldStVx x) rfl,
    fun _ => ⟨exec_of_no_fault (i := .ldDtVx x) rfl, exec_of_no_fault (i := .ldStVx x) rfl⟩⟩

/-! ### The random byte (R217, R222) -/

/-- Settles O51: one draw and one register write, of a word-wide AND that acts on every bit alone. -/
theorem randomIsMaskedAndAssigned : Obligations.RandomIsMaskedAndAssigned := by
  refine fun x nn => ⟨decodeOfEncode (.rnd x nn) rfl, fun s =>
    ⟨_, exec_of_no_fault (i := .rnd x nn) rfl, rfl, fun k => ?_, fun z hz => ?_⟩⟩
  · simp [Instr.effect, BitVec.getLsbD_and]
  · exact reg_effect (i := .rnd x nn) hz

end Sys2Proof.Machine
end

section
/-! PROOFS. The operations of the host other than Cycle: WriteKey, TickTimers and the countdown of a timer,
and what they leave alone besides (R250 to R252, R274). -/
namespace Sys2Proof.Machine

variable {s t : State}

/-- Settles O54: WriteKey is one write to K. -/
theorem writeKeyWritesOneFlag : Obligations.WriteKeyWritesOneFlag :=
  fun s k b => ⟨_, rfl, rfl, fun j => s.key_writeKey k j b⟩

/-! ### The timers (R250, R251) -/

/-- One countdown is by 1 with floor 0 (R250). -/
theorem toNat_tick (b : Byte) : (tick b).toNat = b.toNat - 1 := by
  unfold tick
  split
  · rw [BitVec.toNat_ofNat]
    exact Nat.mod_eq_of_lt (by omega)
  · omega

/-- Settles O52: TickTimers is one countdown of each timer. -/
theorem tickTimersCountsDown : Obligations.TickTimersCountsDown :=
  fun s => ⟨_, rfl, rfl, toNat_tick s.dt, toNat_tick s.st⟩

/-- `k` countdowns are by `k` with floor 0. -/
theorem toNat_tick_iterate (k : Nat) (b : Byte) : (tick^[k] b).toNat = b.toNat - k := by
  induction k with
  | zero => rfl
  | succ k ih => rw [Function.iterate_succ_apply', toNat_tick, ih, Nat.sub_sub]

/-- A timer is 0 after `k` countdowns exactly when it held at most `k` (R251). -/
theorem tick_iterate_eq_zero_iff (k : Nat) (b : Byte) : tick^[k] b = 0 ↔ b.toNat ≤ k := by
  rw [← BitVec.toNat_inj, toNat_tick_iterate]
  exact Nat.sub_eq_zero_iff_le

/-- `k` TickTimers operations count DT down `k` times, apart from all else in the state. -/
theorem State.dt_tickTimers_iterate (s : State) (k : Nat) : (State.tickTimers^[k] s).dt = tick^[k] s.dt :=
  Function.Semiconj.iterate_right (f := State.dt) State.tickTimers_dt k s

/-- `k` TickTimers operations count ST down `k` times, apart from all else in the state. -/
theorem State.st_tickTimers_iterate (s : State) (k : Nat) : (State.tickTimers^[k] s).st = tick^[k] s.st :=
  Function.Semiconj.iterate_right (f := State.st) State.tickTimers_st k s

/-- Settles O53: each timer counts down on its own, by induction on the number of ticks. -/
theorem timerReachesZeroAfterItsValue : Obligations.TimerReachesZeroAfterItsValue := by
  intro s k
  rw [s.dt_tickTimers_iterate, s.st_tickTimers_iterate]
  exact ⟨tick_iterate_eq_zero_iff k s.dt, tick_iterate_eq_zero_iff k s.st⟩

/-! ### MODE and the fault registers (R238, R246) -/

/-- LoadProgram writes Memory alone, if anything (R274, R275). -/
theorem State.loadProgram_eq (s : State) (bytes : List Byte) :
    (s.loadProgram bytes).1 = { s with mem := (s.loadProgram bytes).1.mem } := by
  unfold State.loadProgram
  split <;> rfl

/-- MODE and the fault registers are as they were (R28, R29). -/
structure State.SameModeAndFault (s t : State) : Prop where
  mode : t.mode = s.mode
  faultCause : t.faultCause = s.faultCause
  faultAddr : t.faultAddr = s.faultAddr
  faultInstr : t.faultInstr = s.faultInstr

/-- Reset and Cycle alone write MODE and the fault registers (R238, R246). -/
theorem sameModeAndFault_of_applyOp {op : HostOp} (h : applyOp s op = .next t) (hr : op ≠ .reset)
    (hc : op ≠ .cycle) : s.SameModeAndFault t := by
  cases op with
  | reset => exact absurd rfl hr
  | cycle => exact absurd rfl hc
  | loadProgram bytes =>
    cases h
    rw [s.loadProgram_eq bytes]
    exact ⟨rfl, rfl, rfl, rfl⟩
  | writeKey k b =>
    cases h
    exact ⟨rfl, rfl, rfl, rfl⟩
  | tickTimers =>
    cases h
    exact ⟨rfl, rfl, rfl, rfl⟩

/-- A cycle begun in a stopped mode changes nothing (R122). -/
theorem eq_of_step_stopped (hm : s.mode.stopped = true) (h : step s = .next t) : t = s := by
  cases (step_stopped s hm).symm.trans h
  rfl

/-- Settles O22: a cycle in Faulted is idle, and Reset and Cycle alone write these elements. -/
theorem faultIsKeptUntilReset : Obligations.FaultIsKeptUntilReset := by
  intro s t op hm hr h
  have hsame : s.SameModeAndFault t := by
    by_cases hc : op = .cycle
    · subst hc
      obtain rfl : t = s := eq_of_step_stopped ((Mode.stopped_eq_true s.mode).mpr (.inr hm)) h
      exact ⟨rfl, rfl, rfl, rfl⟩
    · exact sameModeAndFault_of_applyOp h hr hc
  exact ⟨hsame.mode.trans hm, hsame.faultCause, hsame.faultAddr, hsame.faultInstr⟩

end Sys2Proof.Machine
end

section
/-! PROOFS. Exceptional cycles (R230 to R246): the unrecognized word, fault entry, which instruction faults
how, and the mode state machine. -/
namespace Sys2Proof.Machine

variable {i : Instr} {s t : State}

/-- Settles O9: the fetch and the decoder leave the cycle its no-op branch alone. -/
theorem unrecognizedWordIsACountedNoOp : Obligations.UnrecognizedWordIsACountedNoOp := by
  intro s e hl hin hd
  rcases cycle_cases s ((Mode.stopped_eq_false s.mode).mpr hl) with ⟨a, hb, -⟩ | ⟨-, -, hc⟩ | ⟨i, t, -, hd', -⟩
  · cases (s.fetch_none.mpr hin).symm.trans hb
  · exact hc
  · cases hd.symm.trans hd'

/-! ### Fault entry (R231, R236) -/

/-- An instruction that ends in Faulted has raised a fault and entered it (R127, R236). -/
theorem fault_of_faulted (h : exec i s = .next t) (hm : t.mode = .faulted) :
    ∃ c a, i.fault s = some (c, a) ∧ t = s.takeFault c a (encode i) := by
  cases hf : i.fault s with
  | some f =>
    cases (exec_of_fault hf).symm.trans h
    exact ⟨_, _, rfl, rfl⟩
  | none =>
    cases (exec_of_no_fault hf).symm.trans h
    exact absurd hm (modeAfter_ne_faulted _)

/-- Settles O20: the fetch and the instruction both fault by fault entry, and an instruction encodes to
the word it was decoded from. -/
theorem faultEntryWritesFourElements : Obligations.FaultEntryWritesFourElements := by
  intro s t r hl h hm
  rcases cycle_cases s ((Mode.stopped_eq_false s.mode).mpr hl) with
    ⟨a, hb, hc⟩ | ⟨-, -, hc⟩ | ⟨i, u, hin, hd, hi, hc⟩
  · have hout : ¬ s.fetchInBounds := by simp [← s.fetch_none, hb]
    cases hc.symm.trans h
    exact ⟨rfl, Fault.oobFetch.code_range, (if_neg hout).symm, rfl⟩
  · cases hc.symm.trans h
    cases hm
  · cases hc.symm.trans h
    obtain ⟨c, a, -, rfl⟩ := fault_of_faulted hi hm
    have hword : encode i = s.fetchWord := (encodeOfDecode _ _ hd).2
    refine ⟨rfl, c.code_range, ?_, ?_⟩
    · rw [if_pos hin]
      exact hword
    · rw [executedResult_of_faulted i _ hm, ← hword]
      rfl

/-- A block's fault carries its check's cause and the larger of the base and MEM_SIZE, and a block of no
bytes has none (R65). -/
theorem State.fault_of_block {a n b : Nat} {c d : Fault}
    (h : (s.outOfBounds a n).map (fun x => (c, x)) = some (d, b)) :
    n ≠ 0 ∧ d = c ∧ b = max a s.params.memSize := by
  obtain ⟨x, hx, hxb⟩ := Option.map_eq_some_iff.mp h
  cases hxb
  obtain ⟨⟨hlow, hend, hsize⟩, -⟩ := (s.outOfBounds_eq_some a n b).mp hx
  have hmax := State.outOfBounds_of_end_outside (s := s) (a := a) (n := n) (by omega) (by omega)
  exact ⟨by omega, rfl, Option.some.inj (hx.symm.trans hmax)⟩

/-- Settles O21: six instructions check anything, RET and CALL the stack and the others a block at I. -/
theorem whichInstructionFaultsHow : Obligations.WhichInstructionFaultsHow := by
  intro i s t h hm
  obtain ⟨c, a, hf, rfl⟩ := fault_of_faulted h hm
  cases i with
  | ret =>
    obtain ⟨hsp, hca⟩ := Option.ite_none_right_eq_some.mp hf
    cases hca
    exact .inl ⟨rfl, hsp, rfl, by rw [State.takeFault_faultAddr, hsp]; rfl⟩
  | call nnn =>
    obtain ⟨hsp, hca⟩ := Option.ite_none_right_eq_some.mp hf
    cases hca
    exact .inr (.inl ⟨⟨nnn, rfl⟩, hsp, rfl, BitVec.ofNat_toNat _ _⟩)
  | drw x y n =>
    obtain ⟨hn, rfl, rfl⟩ := State.fault_of_block hf
    exact .inr (.inr (.inl ⟨.inl ⟨x, y, n, rfl, fun h0 => hn (by rw [h0]; rfl)⟩, rfl, rfl⟩))
  | loadRegs x =>
    obtain ⟨-, rfl, rfl⟩ := State.fault_of_block hf
    exact .inr (.inr (.inl ⟨.inr ⟨x, rfl⟩, rfl, rfl⟩))
  | ldB x =>
    obtain ⟨-, rfl, rfl⟩ := State.fault_of_block hf
    exact .inr (.inr (.inr ⟨.inl ⟨x, rfl⟩, rfl, rfl⟩))
  | storeRegs x =>
    obtain ⟨-, rfl, rfl⟩ := State.fault_of_block hf
    exact .inr (.inr (.inr ⟨.inr ⟨x, rfl⟩, rfl, rfl⟩))
  | _ => cases hf

/-! ### The mode state machine (R246) -/

/-- A skip ends in Running whether or not it skips (R126, R127). -/
@[simp] theorem State.modeAfter_skipIf (s : State) (cond : Bool) : modeAfter (s.skipIf cond) = .running := by
  cases cond <;> rfl

/-- HALT's outcome alone ends in Halted (R127, R142). -/
theorem modeAfter_outcome_eq_halted_iff (i : Instr) (s : State) :
    modeAfter (i.outcome s) = .halted ↔ ∃ kk, i = .halt kk := by
  cases i with
  | ldVxK x => cases hk : s.lowestKey <;> simp [Instr.outcome, hk, modeAfter]
  | seImm | sneImm | seReg | sneReg | skp | sknp => simp [Instr.outcome]
  | _ => simp [Instr.outcome, modeAfter]

/-- LD Vx, K with no key flag set is the only instruction whose outcome is to wait (R127, R213). -/
theorem modeAfter_outcome_eq_waitingForKey_iff (i : Instr) (s : State) :
    modeAfter (i.outcome s) = .waitingForKey ↔ (∀ k, s.key k = false) ∧ ∃ x, i = .ldVxK x := by
  rw [← s.lowestKey_eq_none]
  cases i with
  | ldVxK x => cases hk : s.lowestKey <;> simp [Instr.outcome, hk, modeAfter]
  | seImm | sneImm | seReg | sneReg | skp | sknp => simp [Instr.outcome]
  | _ => simp [Instr.outcome, modeAfter]

/-- An instruction ends in another mode than Faulted by its outcome kind, when it raises no fault (R127). -/
theorem mode_iff_of_exec {m : Mode} (h : exec i s = .next t) (hm : m ≠ .faulted) :
    t.mode = m ↔ i.fault s = none ∧ modeAfter (i.outcome s) = m := by
  cases hf : i.fault s with
  | some f =>
    cases (exec_of_fault hf).symm.trans h
    simp [hm.symm]
  | none =>
    cases (exec_of_no_fault hf).symm.trans h
    simp

/-- An instruction ends in Halted exactly when it is HALT, which raises no fault (R142, R246). -/
theorem halted_iff_of_exec (h : exec i s = .next t) : t.mode = .halted ↔ ∃ kk, i = .halt kk := by
  rw [mode_iff_of_exec h (by decide), modeAfter_outcome_eq_halted_iff]
  refine and_iff_right_of_imp ?_
  rintro ⟨kk, rfl⟩
  rfl

/-- An instruction ends in WaitingForKey exactly when it is LD Vx, K, which raises no fault, and no key
flag is set (R213, R246). -/
theorem waitingForKey_iff_of_exec (h : exec i s = .next t) :
    t.mode = .waitingForKey ↔ (∀ k, s.key k = false) ∧ ∃ x, i = .ldVxK x := by
  rw [mode_iff_of_exec h (by decide), modeAfter_outcome_eq_waitingForKey_iff]
  refine and_iff_right_of_imp ?_
  rintro ⟨-, x, rfl⟩
  rfl

/-- The mode an executing cycle ends in, told from its fetch and its instruction (R127, R233, R236). -/
theorem mode_of_step_live (hm : s.mode.stopped = false) (h : step s = .next t) :
    (t.mode = .faulted ↔
      ¬ s.fetchInBounds ∨ ∃ i u, decode s.fetchWord = .ok i ∧ exec i s = .next u ∧ u.mode = .faulted) ∧
    (t.mode = .halted ↔ s.fetchInBounds ∧ ∃ kk, decode s.fetchWord = .ok (.halt kk)) ∧
    (t.mode = .waitingForKey ↔
      s.fetchInBounds ∧ (∀ k, s.key k = false) ∧ ∃ x, decode s.fetchWord = .ok (.ldVxK x)) := by
  rcases step_cases s hm with ⟨a, hb, hs⟩ | ⟨hin, ⟨e, hd⟩, hs⟩ | ⟨i, u, hin, hd, hi, hs⟩
  · have hout : ¬ s.fetchInBounds := by simp [← s.fetch_none, hb]
    cases hs.symm.trans h
    simp [hout]
  · cases hs.symm.trans h
    simp [hin, hd]
  · cases hs.symm.trans h
    simp [hin, hd, hi, halted_iff_of_exec hi, waitingForKey_iff_of_exec hi]

/-- Settles O14: Reset and Cycle alone write MODE, an idle cycle keeps it, and an executing cycle sets it
from its fetch and its instruction. -/
theorem modeStateMachine : Obligations.ModeStateMachine := by
  intro s t op h
  refine ⟨?_, fun hr hc => (sameModeAndFault_of_applyOp h hr hc).mode, ?_, ?_⟩
  · rintro rfl
    cases h
    exact s.hostReset_mode
  · rintro rfl hover
    rw [eq_of_step_stopped ((Mode.stopped_eq_true s.mode).mpr hover) h]
  · rintro rfl hlive
    exact mode_of_step_live ((Mode.stopped_eq_false s.mode).mpr hlive) h

end Sys2Proof.Machine
end

section
/-! PROOFS. PowerOn, Reset and LoadProgram (R270 to R275), and the invariant over all the host's operations
(R284). -/
namespace Sys2Proof.Machine

variable {i : Instr} {s t : State}

/-! ### PowerOn (R270, R271) -/

/-- Settles O18: the machine of R40 meets the invariant, and PowerOn asks for legal parameters alone. -/
theorem powerOnMeetsTheInvariant : Obligations.PowerOnMeetsTheInvariant :=
  fun _ => ⟨fun hp => ⟨_, if_pos hp, rfl, inv_afterPowerOn hp⟩, fun hp => if_neg hp⟩

/-! ### LoadProgram (R274, R275) -/

/-- A program that fits is stored from PROG_BASE upward (R274). -/
theorem State.loadProgram_of_fits {bytes : List Byte} (h : progBase + bytes.length ≤ s.params.memSize) :
    s.loadProgram bytes = (s.store progBase bytes, true) :=
  if_neg (Nat.not_lt.mpr h)

/-- A program that does not fit is not loaded (R275). -/
theorem State.loadProgram_of_too_long {bytes : List Byte}
    (h : s.params.memSize < progBase + bytes.length) : s.loadProgram bytes = (s, false) :=
  if_pos h

@[simp] theorem State.loadProgram_params (s : State) (bytes : List Byte) :
    (s.loadProgram bytes).1.params = s.params := by
  rw [s.loadProgram_eq bytes]

/-- Settles O55: LoadProgram is one block store, or nothing. -/
theorem loadProgramCopiesTheBytes : Obligations.LoadProgramCopiesTheBytes :=
  fun s _ => ⟨fun hfits => ⟨_, State.loadProgram_of_fits hfits, rfl,
      fun _ hj => Memory.read_writeBytes_inside s.mem progBase (List.getElem?_eq_getElem hj),
      fun _ ha => Memory.read_writeBytes_outside s.mem ha⟩,
    State.loadProgram_of_too_long⟩

/-! ### Reset (R272, R273) -/

/-- Settles O56: every element but Memory is PowerOn's by definition, and Reset's write to Memory is the
font table's block. -/
theorem resetKeepsTheProgram : Obligations.ResetKeepsTheProgram := by
  refine fun s => ⟨s.hostReset, rfl, ?frame, fun x => ?register, fun k => ?key,
    fun j hj => ?font, fun a ha => ?rest⟩
  case frame =>
    rw [s.hostReset_mem]
    rfl
  case register => simp [State.reg]
  case key => simp [State.key]
  case font => rw [s.read_hostReset, if_pos (by omega), Nat.add_sub_cancel_left]
  case rest => rw [s.read_hostReset, if_neg (by omega)]

/-! ### The invariant over the host's operations (R284) -/

/-- Reset gives every storage its size again and clears SP and the fault registers; Memory keeps its form
(R272, R273). -/
theorem State.inv_hostReset (hs : s.shaped) : s.hostReset.inv := by
  obtain ⟨hp, hwf, hbelow, -⟩ := hs
  obtain ⟨⟨-, -, -, hstack, hfb⟩, hsp, hregs⟩ := inv_afterPowerOn hp
  exact ⟨⟨hp, State.wf_hostReset hwf, State.below_hostReset hp hbelow, hstack, hfb⟩, hsp, hregs⟩

/-- LoadProgram stores within Memory or does nothing (R275). -/
theorem State.inv_loadProgram (hs : s.inv) (bytes : List Byte) : (s.loadProgram bytes).1.inv := by
  obtain ⟨hshape, hsp, hregs⟩ := id hs
  rcases Nat.lt_or_ge s.params.memSize (progBase + bytes.length) with hlong | hfits
  · rw [State.loadProgram_of_too_long hlong]
    exact hs
  · rw [State.loadProgram_of_fits hfits]
    exact ⟨State.shaped_store hshape hfits, hsp, hregs⟩

/-- Every state has a next one: a fault is a state too (R236). -/
theorem step_answers (s : State) : ∃ t, step s = .next t := by
  cases hm : s.mode.stopped with
  | true => exact ⟨s, step_stopped s hm⟩
  | false =>
    rcases step_cases s hm with ⟨_, -, h⟩ | ⟨-, -, h⟩ | ⟨_, _, -, -, -, h⟩
    all_goals exact ⟨_, h⟩

@[simp] theorem effect_params : (i.effect s).params = s.params := by rw [effectOf_effect i s]

/-- No cycle writes the parameters (R270). -/
theorem params_of_step (h : step s = .next t) : t.params = s.params := by
  cases stepEnds_of_step h with
  | idle | faulted | unrecognized => rfl
  | completed i => exact effect_params

/-- Settles O19: the three operations that store within bounds, write a flag or count a timer down keep the
invariant, Reset sets it up again, and Cycle is O16. -/
theorem hostOperationsKeepTheInvariant : Obligations.HostOperationsKeepTheInvariant := by
  intro s op hs
  cases op with
  | reset => exact ⟨_, rfl, State.inv_hostReset hs.1, s.hostReset_params⟩
  | loadProgram bytes =>
    exact ⟨_, rfl, State.inv_loadProgram hs bytes, s.loadProgram_params bytes⟩
  | writeKey | tickTimers => exact ⟨_, rfl, hs, rfl⟩
  | cycle =>
    obtain ⟨t, ht⟩ := step_answers s
    exact ⟨t, ht, stepKeepsTheInvariant s t hs ht, params_of_step ht⟩

end Sys2Proof.Machine
end
